-- ==== Sys2Proof/Word.lean ====
section
/-! DEFINITION. The word types of the part: bytes of a frame, 16-bit and 32-bit fields, samples. -/

namespace Sys2Proof

/-- A byte of a control-port frame, a link packet or a relay-bus transfer (R180, R188, R172). -/
abbrev Byte := BitVec 8

/-- A 16-bit field: relay masks and images (R167, R191). -/
abbrev Half := BitVec 16

/-- A 32-bit word: show positions, house period counts, library tags, words of the SDRAM (R1, R34, R97). -/
abbrev Word := BitVec 32

/-- A 24-bit sample as a pin delivers it (R20, R188). -/
abbrev PinSample := BitVec 24

/-- A sample as the part computes with it: an exact integer (the arithmetic convention of 00_scope.md section 7). -/
abbrev Sample := Int

/-- The 48 samples of one channel in one period, first frame first. -/
abbrev Samples := List Sample

end Sys2Proof
end

