-- ==== Sys2Proof/Syntax.lean ====
section
/-! DEFINITION. The commands of the part: one constructor of Instr for each row of spec/opcode_table.json, with
the data the command carries. -/

namespace Sys2Proof

/-- A control port (00_scope.md section 1; R179). -/
inductive Port where
  | A | B | C
deriving DecidableEq, Repr

/-- The alarm kinds, in the order of the table of R134, which is the order of their codes (R190). -/
inductive AlarmKind where
  | silence | over | clip | linkLost | linkOverrun | linkMismatch | engineLate
  | cueLate | cueBlocked | cueMark | draftExpired | relayFault | libraryCorrupt | libraryDone
deriving DecidableEq, Repr

/-- The scope of an alarm identity: a screen, or the part as a whole (R134). -/
inductive Scope where
  | screen (n : Fin 8)
  | device
deriving DecidableEq, Repr

/-- An alarm identity: kind, scope and index (R134). -/
structure AlarmId where
  kind  : AlarmKind
  scope : Scope
  index : Nat
deriving DecidableEq, Repr

/-- What a LINE cue or a DRIVE_LINE asks of a cue line, as the frame gives it (R165, R191): a level byte, a
pulse length, or a mode byte that is no code of the table. -/
inductive RawDrive where
  | level (value : Nat)
  | pulse (length : Nat)
  | other (mode : Nat)
deriving DecidableEq, Repr

/-- The action and arguments an ADD_CUE frame gives (R152, R191), before they are checked. -/
inductive RawAction where
  | relay (expander mask values : Nat)
  | line (line : Nat) (drive : RawDrive)
  | fade (level length : Nat)
  | mute
  | unmute
  | format (mode : Nat)
  | eqSelect (slot : Nat)
  | mark
  | other (kind : Nat)
deriving DecidableEq, Repr

/-- The commands. The first group are the part's own events and the events on its pins; the requests follow,
each with the port that sent it and its arguments as numbers in the order and codes of the catalogue (R191),
so that an argument outside its range can be written and is refused by its rule. -/
inductive Instr where
  -- resets and the house clock
  | powerOnReset
  | lineReset
  /-- The arguments say whether the chip select of port A, B, C is low across the release (R186). -/
  | resetLineRelease (lowA lowB lowC : Bool)
  /-- `backup`: the backup period this house period completes, left and right of each frame (R20).
  `clockLow`: whether the relay clock, released by the master, is held low at this boundary (R174). -/
  | housePeriodBoundary (backup : Vector (PinSample × PinSample) 48) (clockLow : Bool)
  | acquisitionTimeout (n : Fin 8)
  | offQuietTimeout (n : Fin 8)
  | draftExpiry (n : Fin 8)
  | pulseRelease (line : Fin 8)
  | stretchTimeout
  | clockHoldEnd
  -- the memory bus and the library engine
  | prechargeDone
  | initRefreshDone
  | modeSetDone
  | refreshIntervalExpiry
  | memoryBusGrant
  | refreshComplete
  | ringTransferComplete
  /-- `requestFirst`: of the request for the next burst and the freeing of the bus, the request is taken
  first (R107). -/
  | libraryBurstComplete (requestFirst : Bool)
  | libraryEntryStart
  -- links and periods
  /-- The bytes the link's stream brings to the searching receiver, up to and including the channel count of the
  packet whose sync word it finds: bytes passed over, sync word, screen tag, four position bytes, channel count
  (R22, R188). -/
  | syncWordFound (n : Fin 8) (bytes : List Byte)
  /-- The remaining bytes of the packet in progress: content flags, samples, check value (R22, R188). -/
  | packetArrival (n : Fin 8) (rest : List Byte)
  | linkStateReport (n : Fin 8)
  | periodStart
  | linkLoss (n : Fin 8)
  | periodEnd
  | sectionStageComplete (c : Fin 16)
  -- reports on their way between blocks
  | causeAddition (id : AlarmId)
  | causeRemoval (id : AlarmId)
  | alarmRaise (id : AlarmId)
  | alarmAbsence (id : AlarmId)
  | cueHold (n : Fin 8)
  | positionAdvance (n : Fin 8)
  | loadOutcomeReport (n : Fin 8)
  -- the relay bus
  | relayTransactionStart
  /-- `dataLow`: the data line reads low, with the clock high, when the lines are tested (R172). -/
  | relayStartCondition (dataLow : Bool)
  | relayAddressByte (ack : Bool)
  | relayDataByte (ack : Bool)
  | relayReadAddress (ack : Bool)
  | relayReadByte (value : Byte)
  | relayStopCondition
  /-- `dataHigh`: what the data line reads after the pulse (R175). -/
  | recoveryPulse (dataHigh : Bool)
  -- frames and the request arbiter
  /-- The whole bytes counted between the fall and the rise of chip select (R180). -/
  | requestFrame (p : Port) (bytes : List Byte)
  | readFrame (p : Port)
  /-- `clocked`: the bytes clocked out after the kind byte (R182). -/
  | readFrameEnd (p : Port) (clocked : Nat)
  | requestArbiterGrant
  -- requests on the screen
  | screenOn (p : Port) (screen : Nat)
  | screenOff (p : Port) (screen : Nat)
  | forceFallback (p : Port) (screen : Nat)
  | resume (p : Port) (screen : Nat)
  | getScreen (p : Port) (screen : Nat)
  | getLink (p : Port) (screen : Nat)
  -- requests on the profile
  | setProfile (p : Port) (screen tag mode lt rt depth autoReturn : Nat)
  | setSource (p : Port) (screen channel selector link : Nat)
  | getProfile (p : Port) (screen : Nat)
  -- requests on the gain
  | setLevel (p : Port) (screen level length : Nat)
  | mute (p : Port) (screen : Nat)
  | unmute (p : Port) (screen : Nat)
  | setFaderLaw (p : Port) (entries : List Nat)
  | getFaderLaw (p : Port)
  -- requests on banks and drafts
  | openDraft (p : Port) (screen origin slot : Nat)
  | setSection (p : Port) (screen channel sec inUse : Nat) (b0 b1 b2 a1 a2 : Int)
  | setChannel (p : Port) (screen channel trim delay invert : Nat)
  | commit (p : Port) (screen : Nat)
  | abandon (p : Port) (screen : Nat)
  | getDraft (p : Port) (screen : Nat)
  | readBank (p : Port) (screen : Nat)
  -- requests on the library and the memory
  | saveLibrary (p : Port) (slot screen tag : Nat)
  | eraseSlot (p : Port) (slot : Nat)
  | getLibrary (p : Port)
  | getMemory (p : Port) (screen : Nat)
  -- requests on meters and watches
  | readMeters (p : Port) (screen : Nat)
  | setWatch (p : Port) (screen meter kind threshold hold action : Nat)
  | setMeterRelease (p : Port) (shift : Nat)
  -- requests on alarms
  | setSeverity (p : Port) (kind severity action : Nat)
  | setRoute (p : Port) (severity mask : Nat)
  | setSnapshotLevel (p : Port) (severity : Nat)
  | setLine (p : Port) (line mode threshold scopeMask follow : Nat)
  | clearLineLatch (p : Port) (line : Nat)
  | readActive (p : Port) (start : Nat)
  | ackAlarm (p : Port) (kind scope index : Nat)
  | readLog (p : Port) (start : Nat)
  | readSnapshot (p : Port) (screen : Nat)
  | releaseSnapshot (p : Port) (screen : Nat)
  -- requests on cues
  | addCue (p : Port) (screen id position lateLimit catchUp : Nat) (action : RawAction)
  | removeCue (p : Port) (screen id : Nat)
  | clearCues (p : Port) (screen : Nat)
  | listCues (p : Port) (screen start : Nat)
  | cueEnable (p : Port) (screen value : Nat)
  | driveLine (p : Port) (line : Nat) (drive : RawDrive)
  -- requests on the relay bus, and on the part
  | setExpander (p : Port) (expander present address width verify : Nat)
  | relayWrite (p : Port) (expander mask values : Nat)
  | getExpander (p : Port)
  | getStatus (p : Port)
  | resetPart (p : Port)
deriving DecidableEq, Repr

end Sys2Proof
end

