-- ==== Sys2Proof/Decode.lean ====
section
/-! DEFINITION. The command a word spells by the bits of spec/opcode_table.json. -/

namespace Sys2Proof

/-- The table gives bits to none of its rows (every row's list of fields is empty), so no word spells a command. The
bytes in which a request travels are those of R180 and R191, and the request arbiter reads them (PortEvents.lean). -/
def decodeTableWord (_nbits _w : Nat) : Option Instr := none

end Sys2Proof
end

