-- ==== Sys2Proof/Config.lean ====
section
/-! DEFINITION. The figures the manual fixes (00_scope.md sections 2.2 and 4) and the free values it leaves open. -/

namespace Sys2Proof.Config

/-- Frames in a house period and in a block (00_scope.md section 3). -/
def frames : Nat := 48

/-- The two bytes of the sync word (R188). -/
def syncWord : BitVec 8 × BitVec 8 := (0x5E, 0xC3)

/-- Packets the input packet queue of a receiver holds (R21). -/
def inputQueueDepth : Nat := 4

/-- Contiguous good packets that lock a link (R25). -/
def lockCount : Nat := 8

/-- Missed takes that lose a link in holdover (R29). -/
def missLimit : Nat := 32

/-- House periods without a good packet that time a link out (R26, R31). -/
def quietLimit : Nat := 100

/-- Periods the backup ring keeps (R20). -/
def backupDepth : Nat := 16

/-- Outstanding periods at which the overflow rule acts (R19). -/
def overflowCount : Nat := 4

/-- The greatest gain code (R69, R78). -/
def maxGain : Nat := 1048576

/-- The unity gain code 2^18 (R68). -/
def unityGain : Nat := 262144

/-- The greatest channel delay in samples (R78). -/
def maxDelay : Nat := 12240

/-- The greatest fader ramp length in house periods (R70). -/
def maxRamp : Nat := 60000

/-- House periods after the last touch at which a port-held draft expires (R82). -/
def draftLife : Nat := 30000

/-- Entries of the library queue (R89). -/
def libraryQueueDepth : Nat := 4

/-- Words of a library image (R88). -/
def imageWords : Nat := 1028

/-- Words between the starts of two library slots (R97). -/
def slotPitch : Nat := 1280

/-- Bursts of a library transfer (R89). -/
def transferBursts : Nat := 33

/-- The first word of the ring region (R97). -/
def ringBase : Nat := 65536

/-- Samples, and words, of one delay ring (R97). -/
def ringLength : Nat := 12288

/-- Periods one delay ring holds (R108). -/
def ringPeriods : Nat := 256

/-- Pending refreshes at which a refresh is forced (R103). -/
def forcedRefreshAt : Nat := 8

/-- Entries of the alarm log (R143). -/
def logDepth : Nat := 64

/-- Cues the pool holds (R149). -/
def poolSize : Nat := 256

/-- Stretch count at which a relay transaction is abandoned (R174). -/
def stretchLimit : Nat := 26

/-- Clock pulses after which a recovery gives up (R175). -/
def recoveryPulses : Nat := 9

/-- The greatest magnitude of a 24-bit sample, the top of meter values and thresholds (R116, R125). -/
def maxMeter : Nat := 8388608

/-- FREE VALUE (log entry 1). The word an SDRAM address holds, after the power-on numbered by the first
argument, before the part has written it. R97: "After power-on the words hold whatever the memory came up
with". Nothing constrains it. -/
opaque sdramPowerOn : Nat → Nat → Word

/-- FREE VALUE (log entry 2). Whether the word at the address given second has its new value after the full
reset numbered by the first argument cut a write short. R102: "Words that a transfer cut short was writing
may hold old or new values". Nothing constrains it. -/
opaque cutShortIsNew : Nat → Nat → Bool

end Sys2Proof.Config
end

