-- ==== Sys2Proof/Machine/State.lean ====
section
/-! DEFINITION. The state of the part, block by block as the table of 00_scope.md section 2 names them, its faults and
refusals, and the state after a power-on reset. -/

namespace Sys2Proof.Machine

open Sys2Proof

/-- The faults of a step. There is none: the manual describes no command that stops the part, and no meaning
answers with a fault. (Safe: a fault would only stop a run.) -/
inductive Fault
deriving DecidableEq, Repr

/-- The refusals of a step. -/
inductive Refusal where
  /-- Raised by exec's arm of a command that has no meaning yet; no arm raises it now. Safe: the run stops. -/
  | notModelled (mnemonic : String)
deriving DecidableEq, Repr

/-! ### Screen Controller (R2) -/

/-- Screen states, in the order R2 lists them (R2, section 1.2). -/
inductive ScreenState where
  | off | ready | playing | fallback
deriving DecidableEq, Repr

/-- Link states, in the order R21 lists them. -/
inductive LinkState where
  | down | acquiring | locked | holdover
deriving DecidableEq, Repr

/-- A block: 48 samples of each of the sixteen output channels (R2). -/
abbrev Block := Vector Samples 16

/-- A screen context (R2), with the link state the Screen Controller has noted (R5) and the block its output
port is sending (R13). -/
structure ScreenContext where
  state       : ScreenState
  offPending  : Bool
  /-- The fallback cause set, kept in the order of R12 so that equal sets are equal lists. -/
  causes      : List AlarmId
  hold        : Bool
  /-- The output queue, oldest first. -/
  queue       : List Block
  outstanding : Nat
  owed        : Nat
  /-- Staged changes: the bank swap, the profile change and the FORMAT cue effect wait for the next start. -/
  swapMark    : Bool
  profileMark : Bool
  formatMark  : Bool
  /-- The link state of the latest report the Screen Controller has taken (R5). -/
  notedLink   : LinkState
  /-- The block the output port is sending in the present house period (R13). -/
  sending     : Block
deriving DecidableEq, Repr

/-! ### Link Receivers (R21) -/

/-- A packet held in the input packet queue (R21): its samples in frame order (R188). -/
structure Packet where
  position : Word
  count    : Nat
  silent   : Bool
  samples  : Samples
deriving DecidableEq, Repr

/-- A receiver record (R21), with the count and flag of the last packet taken (R38), the bytes read of the packet in
progress, absent while the receiver searches for a sync word, and the bytes of the stream the search has not passed
over yet (R22). -/
structure LinkRecord where
  state        : LinkState
  queue        : List Packet
  expected     : Word
  acquisition  : Nat
  missed       : Nat
  quiet        : Nat
  lastPosition : Word
  startPending : Bool
  known        : Bool
  lossReported : Bool
  takenCount   : Nat
  takenSilent  : Bool
  reading      : Option (Vector Byte 6)
  search       : List Byte
deriving DecidableEq, Repr

/-- Advance kinds (R35). -/
inductive AdvanceKind where
  | start | contiguous | jumpForward | jumpBackward
deriving DecidableEq, Repr

/-! ### Decoder (R39, R48) -/

/-- Decode modes (R39). -/
inductive DecodeMode where
  | discrete | matrix
deriving DecidableEq, Repr

/-- The entries of a source selector table (R39). -/
inductive Selector where
  | silent
  | link (n : Fin 16)
  | decL | decC | decR | decS
deriving DecidableEq, Repr

/-- A screen profile (R39). -/
structure Profile where
  tag        : Nat
  mode       : DecodeMode
  lt         : Fin 16
  rt         : Fin 16
  depth      : Nat
  autoReturn : Bool
  table      : Vector Selector 16
deriving DecidableEq, Repr

/-- A steering state (R48). The envelopes are never negative (R50). -/
structure Steering where
  el : Nat
  er : Nat
  es : Nat
  ed : Nat
  lr : Int
  fb : Int
deriving DecidableEq, Repr

/-- What the Decoder keeps for one screen: the profile in effect, the staged profile, the steering state. -/
structure DecoderRecord where
  profile  : Profile
  staged   : Option Profile
  steering : Steering
deriving DecidableEq, Repr

/-! ### Gain stage (R68, R69) -/

/-- A fader ramp in flight (R68). -/
structure Ramp where
  start  : Nat
  target : Nat
  length : Nat
  done   : Nat
deriving DecidableEq, Repr

/-- A master level record (R68). -/
structure MasterLevel where
  level  : Nat
  gain   : Nat
  ramp   : Option Ramp
  muted  : Bool
  factor : Nat
deriving DecidableEq, Repr

/-- The Gain stage: the eight master level records and the fader law table (R69). -/
structure GainStage where
  levels : Vector MasterLevel 8
  law    : Vector Nat 101
deriving DecidableEq, Repr

/-! ### Bank Controller (R78, R79) -/

/-- A section record (R78). -/
structure Section where
  inUse : Bool
  b0 : Int
  b1 : Int
  b2 : Int
  a1 : Int
  a2 : Int
deriving DecidableEq, Repr

/-- A channel record (R78). -/
structure ChannelRecord where
  sections : Vector Section 12
  trim     : Nat
  delay    : Nat
  invert   : Bool
deriving DecidableEq, Repr

/-- A bank: one channel record per output channel (R78). -/
abbrev Bank := Vector ChannelRecord 16

/-- The holder of a draft (R79): a port, with the holder's last touch, or the cue schedule, with the cue id. -/
inductive Holder where
  | port (p : Port) (lastTouch : Word)
  | cue (id : Nat)
deriving DecidableEq, Repr

/-- Draft states (R79). -/
inductive DraftState where
  | loading | editable | committing
deriving DecidableEq, Repr

/-- The origin of a draft's content (R79). -/
inductive Origin where
  | active | empty
  | library (slot : Fin 48)
deriving DecidableEq, Repr

/-- A draft (R79). Its content is absent while it is LOADING. -/
structure Draft where
  holder  : Holder
  state   : DraftState
  origin  : Origin
  content : Option Bank
deriving DecidableEq, Repr

/-- The Bank Controller: each screen's active bank and its optional draft. -/
structure BankController where
  banks  : Vector Bank 8
  drafts : Vector (Option Draft) 8
deriving DecidableEq, Repr

/-! ### Library Engine (R87, R89) -/

/-- Slot states, in the order R87 lists them. -/
inductive SlotState where
  | empty | valid | writing
deriving DecidableEq, Repr

/-- A slot directory entry (R87). The tag and the check value are meaningful when the slot is VALID. -/
structure Slot where
  state   : SlotState
  pending : Nat
  tag     : Word
  check   : Word
deriving DecidableEq, Repr

/-- What a library queue entry asks for (R89). -/
inductive LibraryTask where
  | load
  | save (tag : Word)
deriving DecidableEq, Repr

/-- A library queue entry (R89). `discarded` marks a load whose draft was removed while it was in progress (R93). -/
structure LibraryEntry where
  task      : LibraryTask
  slot      : Fin 48
  screen    : Fin 8
  discarded : Bool
deriving DecidableEq, Repr

/-- The Library Engine: slot directory, library queue oldest first, the bursts completed of the entry in
progress (absent while the engine is idle; the entry in progress is the head of the queue), transfer buffer. -/
structure LibraryEngine where
  slots    : Vector Slot 48
  queue    : List LibraryEntry
  progress : Option Nat
  buffer   : List Word
deriving DecidableEq, Repr

/-! ### Memory Controller (R99, R108) -/

/-- Controller states (R99). -/
inductive MemoryState where
  | initialising | ready
deriving DecidableEq, Repr

/-- Steps of the initialisation sequence (R99, R100). -/
inductive InitStep where
  | wait | precharge
  | refresh (k : Nat)
  | modeSet | done
deriving DecidableEq, Repr

/-- A ring transfer (R98, R109): the ring, its first ring position and, for a write, the samples written; for a
read, how many samples are read. -/
inductive RingTransfer where
  | write (ring : Fin 128) (start : Nat) (values : Samples)
  | read (ring : Fin 128) (start : Nat) (count : Nat)
deriving DecidableEq, Repr

/-- A library burst (R107): its slot, its number 1..33 and its direction. -/
structure Burst where
  slot   : Fin 48
  number : Nat
  write  : Bool
deriving DecidableEq, Repr

/-- What the memory bus carries (R99). A ring transfer is live while the period that asked for it is in
service (R113); a burst is live until RESET_PART abandons its transfer (R87), and a write burst carries the
words it writes. -/
inductive BusOperation where
  | none
  | init
  | refresh
  | ring (t : RingTransfer) (live : Bool)
  | burst (b : Burst) (words : List Word) (live : Bool)
deriving DecidableEq, Repr

/-- A ring record (R108). -/
structure RingRecord where
  writeIndex : Nat
  history    : Nat
  zeros      : Nat
deriving DecidableEq, Repr

/-- One listed word of the SDRAM: its address and its content. -/
abbrev WordCell := Nat × Word

/-- The words of the SDRAM the part has written since the last power-on, addresses strictly rising. The
smallest unit the manual addresses is the 32-bit word (R97), so a cell holds a word. -/
abbrev Memory := List WordCell

/-- The Memory Controller: controller record, ring records, and the SDRAM it owns (R97, R99, R108). -/
structure MemoryController where
  state        : MemoryState
  step         : InitStep
  pending      : Nat
  forced       : Nat
  /-- The refresh interval timer runs (R100, R101). -/
  timerRunning : Bool
  bus          : BusOperation
  /-- The ring request list, in order of joining. -/
  ringList     : List RingTransfer
  libraryRequest : Option Burst
  rings        : Vector RingRecord 128
  sdram        : Memory
deriving DecidableEq, Repr

/-! ### Processing Engine (R15, R16, R59) -/

/-- A section's history: its last two inputs and last two outputs (R59). -/
structure History where
  x1 : Sample
  x2 : Sample
  y1 : Sample
  y2 : Sample
deriving DecidableEq, Repr

/-- A channel state (R59). -/
structure ChannelState where
  histories  : Vector History 12
  delayInUse : Nat
  target     : Option Nat
  clip       : Bool
deriving DecidableEq, Repr

/-- The mark of a period's content (R37). -/
inductive ContentMark where
  | packet (silent : Bool)
  | substitute
  | noLink
deriving DecidableEq, Repr

/-- The fade of a channel in a period (R64, R65). -/
inductive Fade where
  | none | fadeOut | fadeIn
deriving DecidableEq, Repr

/-- How far a channel of the period in service has come (R109): its sections not yet run, its write waiting
for the memory, its read waiting (the samples from `first` on come from the memory), or done. -/
inductive ChannelStage where
  | sections
  | write
  | read (first : Nat)
  | done
deriving DecidableEq, Repr

/-- One channel of the period in service: read delay and fade settled at the start (R64), the stage reached,
the post-equaliser values (R61) and the output samples (R76). -/
structure ChannelWork where
  readDelay : Nat
  fade      : Fade
  stage     : ChannelStage
  post      : Samples
  output    : Samples
deriving DecidableEq, Repr

/-- The processed period in service (R16): its screen, its state, its content's mark and link channels, its
source values, and the master gain and mute factor it read at its start (R73). -/
structure Service where
  screen   : Fin 8
  state    : ScreenState
  mark     : ContentMark
  inputs   : Vector Samples 16
  sources  : Vector Samples 16
  gain     : Nat
  factor   : Nat
  channels : Vector ChannelWork 16
deriving DecidableEq, Repr

/-- A backup period: left and right sample of each frame (R20). -/
abbrev BackupPeriod := List (Sample × Sample)

/-- The Processing Engine: the channel states, the screen served last (R15), the period in service, and the
backup ring, oldest first (R20). -/
structure Engine where
  channels   : Vector (Vector ChannelState 16) 8
  lastServed : Fin 8
  service    : Option Service
  backup     : List BackupPeriod
deriving DecidableEq, Repr

/-! ### Meter Unit (R116, R125) -/

/-- A meter (R116). -/
structure Meter where
  peak  : Nat
  value : Nat
  clips : Nat
deriving DecidableEq, Repr

/-- Watch kinds (R125). -/
inductive WatchKind where
  | none | silence | over
deriving DecidableEq, Repr

/-- The actions of an alarm, in the order of their codes (R135, R190). -/
inductive AlarmAction where
  | none | fallback | holdCues
deriving DecidableEq, Repr

/-- A watch (R125). -/
structure Watch where
  kind      : WatchKind
  threshold : Nat
  hold      : Nat
  action    : AlarmAction
  run       : Nat
  raised    : Bool
deriving DecidableEq, Repr

/-- The Meter Unit: 32 meters and 32 watches of each screen, and the release shift (R121). -/
structure MeterUnit where
  meters  : Vector (Vector Meter 32) 8
  watches : Vector (Vector Watch 32) 8
  shift   : Nat
deriving DecidableEq, Repr

/-! ### Alarm Handler (R135, R137, R143, R144, R146, R147) -/

/-- Severities, rising (R135). -/
inductive Severity where
  | notice | warning | critical
deriving DecidableEq, Repr

/-- A record of the kind map (R135). For SILENCE and OVER the action is NONE and is not read. -/
structure KindRecord where
  severity : Severity
  action   : AlarmAction
deriving DecidableEq, Repr

/-- An entry of the active alarm set (R137). -/
structure ActiveEntry where
  id           : AlarmId
  severity     : Severity
  action       : AlarmAction
  present      : Bool
  acknowledged : Bool
  count        : Nat
  firstRaise   : Word
  latestRaise  : Word
  position     : Option Word
deriving DecidableEq, Repr

/-- An entry of the alarm log (R143). `raised` tells RAISED from CLEARED. -/
structure LogEntry where
  sequence : Word
  period   : Word
  id       : AlarmId
  severity : Severity
  raised   : Bool
deriving DecidableEq, Repr

/-- What a held snapshot keeps (R144). -/
structure Snapshot where
  id       : AlarmId
  period   : Word
  position : Option Word
  values   : Vector Nat 32
deriving DecidableEq, Repr

/-- Alarm line modes (R147). -/
inductive LineMode where
  | off | severity | follow
deriving DecidableEq, Repr

/-- An alarm line record (R147). The scope mask has screen n at weight 2^n and DEVICE at 2^8 (R191). -/
structure AlarmLine where
  mode      : LineMode
  threshold : Severity
  scopes    : BitVec 9
  follow    : Bool
  latch     : Bool
deriving DecidableEq, Repr

/-- The Alarm Handler. A snapshot is held exactly when it is present. A port mask has port A at weight 1, B at
2, C at 4 (R191). The kind map and the routing table are indexed by the codes of R190 less 1. -/
structure AlarmHandler where
  kindMap       : Vector KindRecord 14
  active        : List ActiveEntry
  log           : List LogEntry
  nextSequence  : Word
  snapshots     : Vector (Option Snapshot) 8
  snapshotLevel : Severity
  routes        : Vector (BitVec 3) 3
  lines         : Vector AlarmLine 4
deriving DecidableEq, Repr

/-! ### Cue Scheduler (R149, R151, R164) -/

/-- What a LINE cue or DRIVE_LINE does to a line (R165). -/
inductive LineDrive where
  | level (active : Bool)
  | pulse (length : Nat)
deriving DecidableEq, Repr

/-- Cue actions with their arguments (R161). -/
inductive CueAction where
  | relay (expander : Fin 8) (mask values : Half)
  | line (line : Fin 8) (drive : LineDrive)
  | fade (level length : Nat)
  | mute
  | unmute
  | format (mode : DecodeMode)
  | eqSelect (slot : Fin 48)
  | mark
deriving DecidableEq, Repr

/-- Cue states (R150). A HELD cue carries its held-at. -/
inductive CueState where
  | armed
  | held (since : Word)
  | fired | skipped | late | failed
deriving DecidableEq, Repr

/-- A cue of the pool (R149). -/
structure Cue where
  screen    : Fin 8
  id        : Nat
  position  : Word
  action    : CueAction
  lateLimit : Nat
  catchUp   : Bool
  state     : CueState
deriving DecidableEq, Repr

/-- A schedule record (R151). -/
structure Schedule where
  enable  : Bool
  lastEnd : Option Word
deriving DecidableEq, Repr

/-- A cue line record (R164). -/
structure CueLine where
  pulse     : Bool
  level     : Bool
  remaining : Nat
deriving DecidableEq, Repr

/-- The Cue Scheduler. The pool is kept ordered by screen, position and id, so that a screen's cues stand in
list order. -/
structure CueScheduler where
  pool      : List Cue
  schedules : Vector Schedule 8
  lines     : Vector CueLine 8
deriving DecidableEq, Repr

/-! ### Relay Bus Master (R167, R171) -/

/-- Expander states (R167). -/
inductive ExpanderState where
  | unknown | ok | faulty
deriving DecidableEq, Repr

/-- An entry of the expander table (R167). -/
structure Expander where
  present   : Bool
  address   : Nat
  wide      : Bool
  verify    : Bool
  desired   : Half
  confirmed : Option Half
  state     : ExpanderState
deriving DecidableEq, Repr

/-- Bus states, in the order R171 lists them. -/
inductive BusState where
  | idle | start | address | writeData | stop | readAddress | readData | recover
deriving DecidableEq, Repr

/-- The transaction in flight (R171): expander, captured image, address, width and verify flag, whether the
verify part has begun, the data bytes sent or read in the present part (log entry 44), the value put together from the bytes
read (R173), whether the outcome is settled (R176), and whether its recovery has been entered (R175). -/
structure Flight where
  expander : Fin 8
  image    : Half
  address  : Nat
  wide     : Bool
  verify   : Bool
  inVerify : Bool
  bytes    : Nat
  value    : Half
  settled  : Bool
  recovering : Bool
deriving DecidableEq, Repr

/-- Results of a recovery (R171). -/
inductive Recovery where
  | none | cleared | stuck
deriving DecidableEq, Repr

/-- The Relay Bus Master: expander table, unstarted queue entries in order of arrival, bus record (R171), whether an
expander is holding the released clock low, as last seen (R174), and whether the STOP condition of a transaction that a
reset abandoned is still to be given (R177). -/
structure RelayMaster where
  expanders    : Vector Expander 8
  unstarted    : List (Fin 8)
  bus          : BusState
  flight       : Option Flight
  stretch      : Nat
  pulses       : Nat
  lastRecovery : Recovery
  clockHeld    : Bool
  abandoning   : Bool
deriving DecidableEq, Repr

/-! ### Port Interface (R179) -/

/-- The statuses of a response (R184). -/
inductive Status where
  | ok | accepted | badFrame | badRequest | badArgument | badState | badTable | busy | draftHeld | notHolder
  | unstable | poolFull | duplicateId | notFound | slotEmpty | slotBusy | noResponse
deriving DecidableEq, Repr

/-- A response (R184). -/
structure Response where
  status  : Status
  clamped : Bool
  dropped : Bool
  data    : List Byte
deriving DecidableEq, Repr

/-- A held request (R179, R180): its kind, code, length and argument bytes, and whether its frame is malformed. -/
structure HeldRequest where
  kind      : Byte
  code      : Byte
  length    : Nat
  arguments : List Byte
  malformed : Bool
deriving DecidableEq, Repr

/-- The response slot of a port with what it holds (R179). -/
inductive PortSlot where
  | empty
  | pending (r : HeldRequest)
  | ready (r : Response)
deriving DecidableEq, Repr

/-- A READ frame in progress (R182): the bytes fixed for it, and whether they are a response. -/
structure ReadFrame where
  bytes      : List Byte
  isResponse : Bool
deriving DecidableEq, Repr

/-- A port record (R179), with the READ frame in progress (R182) and whether the port waits for the end of a
frame whose chip select was low across the release of the reset line (R186). The ready line is active exactly
while the slot is READY, so it is computed from the slot. -/
structure PortRecord where
  slot    : PortSlot
  dropped : Bool
  frame   : Option ReadFrame
  deaf    : Bool
deriving DecidableEq, Repr

/-- The Port Interface: the port records A, B, C and the arbiter's last served port. -/
structure PortInterface where
  ports      : Vector PortRecord 3
  lastServed : Port
deriving DecidableEq, Repr

/-! ### Reports on their way between blocks -/

/-- A report on its way to the Alarm Handler (R134): a raise, with the watch's action for SILENCE and OVER
(R129), or an absence; `atOff` marks the absences the Screen Controller reports at entry into OFF (R9). -/
structure AlarmReport where
  id     : AlarmId
  raise  : Bool
  action : AlarmAction
  atOff  : Bool
deriving DecidableEq, Repr

/-- A cause addition or removal on its way to the Screen Controller (R6, R139, R140). `stale` marks an addition
whose raise was taken before the screen's latest entry into OFF. -/
structure CauseMessage where
  screen : Fin 8
  id     : AlarmId
  add    : Bool
  stale  : Bool
deriving DecidableEq, Repr

/-- A position advance on its way to the Cue Scheduler (R36). -/
structure Advance where
  screen : Fin 8
  first  : Word
  kind   : AdvanceKind
deriving DecidableEq, Repr

/-- A load outcome on its way to the Cue Scheduler (R163). `unstable` tells UNSTABLE from CORRUPT. -/
structure LoadOutcome where
  screen   : Fin 8
  cue      : Nat
  unstable : Bool
deriving DecidableEq, Repr

/-- A hold on its way to the Cue Scheduler (R139): the screen whose cue enable it clears, and whether the raise that
sent it was one of the Cue Scheduler's own events, whose hold the screen's next advance follows (R162). -/
structure HoldMessage where
  screen : Fin 8
  ofCue  : Bool
deriving DecidableEq, Repr

/-- The reports sent and not yet taken, each list in order of sending. -/
structure Mail where
  links    : List (Fin 8 × LinkState)
  alarms   : List AlarmReport
  causes   : List CauseMessage
  holds    : List HoldMessage
  advances : List Advance
  outcomes : List LoadOutcome
deriving DecidableEq, Repr

/-! ### The part as a whole -/

/-- The kinds of reset (R185). -/
inductive ResetKind where
  | powerOn | line | part
deriving DecidableEq, Repr

/-- The part as a whole: whether the reset line is held low (R186), the last reset kind (R185), the house period
count (R1), and two counters of the MODEL's own that index its free values (log entries 1 and 2): the power-on
resets and the full resets taken. -/
structure System where
  lineHeld     : Bool
  lastReset    : ResetKind
  housePeriods : Word
  powerOns     : Nat
  fullResets   : Nat
deriving DecidableEq, Repr

/-- The state of the part, with the queue of commands that are waiting. -/
structure State where
  pending : List Instr
  system  : System
  screens : Vector ScreenContext 8
  links   : Vector LinkRecord 8
  decoder : Vector DecoderRecord 8
  gain    : GainStage
  bank    : BankController
  library : LibraryEngine
  memory  : MemoryController
  engine  : Engine
  meter   : MeterUnit
  alarm   : AlarmHandler
  cue     : CueScheduler
  relay   : RelayMaster
  port    : PortInterface
  mail    : Mail
deriving DecidableEq, Repr

/-! ### Reset values -/

/-- 48 samples of 0. -/
def silence : Samples := List.replicate 48 0

/-- A block whose samples are all 0 (R2). -/
def silentBlock : Block := Vector.replicate 16 silence

/-- A screen context after any reset (R2). -/
def resetContext : ScreenContext :=
  { state := .off, offPending := false, causes := [], hold := false, queue := [], outstanding := 0, owed := 0,
    swapMark := false, profileMark := false, formatMark := false, notedLink := .down, sending := silentBlock }

/-- A receiver record after any reset (R21, R34, R38). -/
def resetLink : LinkRecord :=
  { state := .down, queue := [], expected := 0, acquisition := 0, missed := 0, quiet := 0, lastPosition := 0,
    startPending := true, known := false, lossReported := false, takenCount := 0, takenSilent := false,
    reading := none, search := [] }

/-- A profile after any reset: entry n is LINK n (R39). -/
def resetProfile : Profile :=
  { tag := 0, mode := .discrete, lt := 0, rt := 1, depth := 4, autoReturn := true,
    table := Vector.ofFn fun n => .link n }

/-- A steering state of zeros (R44, R48). -/
def resetSteering : Steering := { el := 0, er := 0, es := 0, ed := 0, lr := 0, fb := 0 }

/-- The Decoder's record of a screen after any reset. -/
def resetDecoder : DecoderRecord := { profile := resetProfile, staged := none, steering := resetSteering }

/-- A master level record after any reset (R68). -/
def resetLevel : MasterLevel :=
  { level := 70, gain := Config.unityGain, ramp := none, muted := false, factor := 8 }

/-- The fader law table after any reset: entry k holds floor(k × 262,144 / 70) (R69). -/
def resetLaw : Vector Nat 101 := Vector.ofFn fun k => k.val * 262144 / 70

/-- A section record of the reset contents (R78). -/
def emptySection : Section := { inUse := false, b0 := 0, b1 := 0, b2 := 0, a1 := 0, a2 := 0 }

/-- A channel record of the reset contents (R78). -/
def emptyChannel : ChannelRecord :=
  { sections := Vector.replicate 12 emptySection, trim := Config.unityGain, delay := 0, invert := false }

/-- An empty bank (R78). -/
def emptyBank : Bank := Vector.replicate 16 emptyChannel

/-- A slot after a full reset (R87). Tag and check value are 0, as GET_LIBRARY returns them. -/
def emptySlot : Slot := { state := .empty, pending := 0, tag := 0, check := 0 }

/-- The transfer buffer at reset (log entry 3: the manual gives no value, and none is read). -/
def clearBuffer : List Word := List.replicate Config.imageWords 0

/-- A ring record after any reset (R108). -/
def resetRing : RingRecord := { writeIndex := 0, history := 0, zeros := 0 }

/-- A section history at rest (R59). -/
def restHistory : History := { x1 := 0, x2 := 0, y1 := 0, y2 := 0 }

/-- A channel state after any reset (R59). -/
def resetChannel : ChannelState :=
  { histories := Vector.replicate 12 restHistory, delayInUse := 0, target := none, clip := false }

/-- A meter at 0 (R116). -/
def resetMeter : Meter := { peak := 0, value := 0, clips := 0 }

/-- A watch after any reset (R125). -/
def resetWatch : Watch :=
  { kind := .none, threshold := 0, hold := 1, action := .none, run := 0, raised := false }

/-- The kind map after any reset, in the order of R134 (R135). -/
def resetKindMap : Vector KindRecord 14 :=
  #v[⟨.warning, .none⟩, ⟨.warning, .none⟩, ⟨.notice, .none⟩, ⟨.critical, .fallback⟩, ⟨.warning, .none⟩,
     ⟨.critical, .none⟩, ⟨.warning, .none⟩, ⟨.warning, .none⟩, ⟨.warning, .none⟩, ⟨.notice, .none⟩,
     ⟨.notice, .none⟩, ⟨.warning, .none⟩, ⟨.critical, .none⟩, ⟨.notice, .none⟩]

/-- An alarm line record after any reset (R147). -/
def resetAlarmLine : AlarmLine :=
  { mode := .off, threshold := .critical, scopes := 0, follow := false, latch := false }

/-- The Alarm Handler after any reset (R135, R137, R143, R144, R146, R147). -/
def resetAlarm : AlarmHandler :=
  { kindMap := resetKindMap, active := [], log := [], nextSequence := 0,
    snapshots := Vector.replicate 8 none, snapshotLevel := .critical,
    routes := #v[0#3, 7#3, 7#3], lines := Vector.replicate 4 resetAlarmLine }

/-- A schedule record after any reset (R151). -/
def resetSchedule : Schedule := { enable := false, lastEnd := none }

/-- A cue line record after any reset (R164). -/
def resetCueLine : CueLine := { pulse := false, level := false, remaining := 0 }

/-- An expander table entry after any reset (R167). -/
def resetExpander : Expander :=
  { present := false, address := 8, wide := false, verify := false, desired := 0, confirmed := none,
    state := .unknown }

/-- A port record after any reset (R179). -/
def resetPort : PortRecord := { slot := .empty, dropped := false, frame := none, deaf := false }

/-- No report on its way. -/
def noMail : Mail := { links := [], alarms := [], causes := [], holds := [], advances := [], outcomes := [] }

/-- The Gain stage after any reset. -/
def resetGain : GainStage := { levels := Vector.replicate 8 resetLevel, law := resetLaw }

/-- The Bank Controller after any reset (R78, R79). -/
def resetBank : BankController := { banks := Vector.replicate 8 emptyBank, drafts := Vector.replicate 8 none }

/-- The Library Engine after a full reset (R87). -/
def resetLibrary : LibraryEngine :=
  { slots := Vector.replicate 48 emptySlot, queue := [], progress := none, buffer := clearBuffer }

/-- The Memory Controller after a full reset, over the SDRAM contents given (R99, R108). -/
def resetMemory (sdram : Memory) : MemoryController :=
  { state := .initialising, step := .wait, pending := 0, forced := 0, timerRunning := false, bus := .init,
    ringList := [], libraryRequest := none, rings := Vector.replicate 128 resetRing, sdram := sdram }

/-- The Processing Engine after any reset (R15, R20, R59). -/
def resetEngine : Engine :=
  { channels := Vector.replicate 8 (Vector.replicate 16 resetChannel), lastServed := 7, service := none,
    backup := [] }

/-- The Meter Unit after any reset (R116, R121, R125). -/
def resetMeterUnit : MeterUnit :=
  { meters := Vector.replicate 8 (Vector.replicate 32 resetMeter),
    watches := Vector.replicate 8 (Vector.replicate 32 resetWatch), shift := 4 }

/-- The Cue Scheduler after any reset (R149, R151, R164). -/
def resetCues : CueScheduler :=
  { pool := [], schedules := Vector.replicate 8 resetSchedule, lines := Vector.replicate 8 resetCueLine }

/-- The Relay Bus Master after any reset (R167, R171, R177). What an expander does with the clock line is no
state of the part, and stays as it was last seen; `abandoning` says that the STOP condition of an abandoned transaction
is still to be given. -/
def resetRelay (clockHeld abandoning : Bool) : RelayMaster :=
  { expanders := Vector.replicate 8 resetExpander, unstarted := [], bus := .idle, flight := none, stretch := 0,
    pulses := 0, lastRecovery := .none, clockHeld := clockHeld, abandoning := abandoning }

/-- The Port Interface after any reset (R179). -/
def resetPorts : PortInterface := { ports := Vector.replicate 3 resetPort, lastServed := .C }

/-- The part right after a power-on reset, the reset line released, no command waiting (R186). -/
def State.reset : State :=
  { pending := []
    system  := { lineHeld := false, lastReset := .powerOn, housePeriods := 0, powerOns := 0, fullResets := 0 }
    screens := Vector.replicate 8 resetContext
    links   := Vector.replicate 8 resetLink
    decoder := Vector.replicate 8 resetDecoder
    gain    := resetGain
    bank    := resetBank
    library := resetLibrary
    memory  := resetMemory []
    engine  := resetEngine
    meter   := resetMeterUnit
    alarm   := resetAlarm
    cue     := resetCues
    relay   := resetRelay false false
    port    := resetPorts
    mail    := noMail }

end Sys2Proof.Machine
end

