-- ==== Sys2Proof/Machine/Ops.lean ====
section
/-! DEFINITION. Operations every block uses: updates of records, the SDRAM, the reports between blocks, and the hold of the
reset line. -/

namespace Sys2Proof.Machine

open Sys2Proof

/-! ### Records kept in numbered rows -/

/-- `v` with its record `i` changed by `f`. -/
def update {α : Type} {n : Nat} (v : Vector α n) (i : Fin n) (f : α → α) : Vector α n :=
  v.set i.val (f v[i.val]) i.isLt

/-- Every record of `v` rebuilt from its number and its value. -/
def mapWith {α β : Type} {n : Nat} (v : Vector α n) (f : Fin n → α → β) : Vector β n :=
  Vector.ofFn fun i => f i v[i.val]

/-- The first element that satisfies `p`, with the list that is left without it. -/
def takeFirst {α : Type} (p : α → Bool) : List α → Option (α × List α)
  | [] => none
  | a :: rest => if p a then some (a, rest) else (takeFirst p rest).map fun r => (r.1, a :: r.2)

/-- Applies `f` for each of `xs` in order. -/
def forEach {α : Type} (xs : List α) (f : α → State → State) (s : State) : State :=
  xs.foldl (fun t x => f x t) s

/-- The eight screens, in order. -/
def allScreens : List (Fin 8) := List.finRange 8

/-- The sixteen channels, in order. -/
def allChannels : List (Fin 16) := List.finRange 16

/-- A port's row in the Port Interface (R179). -/
def portIndex : Port → Fin 3
  | .A => 0
  | .B => 1
  | .C => 2

def onScreen (n : Fin 8) (f : ScreenContext → ScreenContext) (s : State) : State :=
  { s with screens := update s.screens n f }

def onLink (n : Fin 8) (f : LinkRecord → LinkRecord) (s : State) : State :=
  { s with links := update s.links n f }

def onDecoder (n : Fin 8) (f : DecoderRecord → DecoderRecord) (s : State) : State :=
  { s with decoder := update s.decoder n f }

def onLevel (n : Fin 8) (f : MasterLevel → MasterLevel) (s : State) : State :=
  { s with gain := { s.gain with levels := update s.gain.levels n f } }

def onBank (n : Fin 8) (b : Bank) (s : State) : State :=
  { s with bank := { s.bank with banks := update s.bank.banks n fun _ => b } }

def onDraft (n : Fin 8) (f : Option Draft → Option Draft) (s : State) : State :=
  { s with bank := { s.bank with drafts := update s.bank.drafts n f } }

def onSlot (k : Fin 48) (f : Slot → Slot) (s : State) : State :=
  { s with library := { s.library with slots := update s.library.slots k f } }

def onRing (k : Fin 128) (f : RingRecord → RingRecord) (s : State) : State :=
  { s with memory := { s.memory with rings := update s.memory.rings k f } }

/-- Changes each of a screen's sixteen channel states. -/
def onChannels (n : Fin 8) (f : Fin 16 → ChannelState → ChannelState) (s : State) : State :=
  { s with engine := { s.engine with channels := update s.engine.channels n fun cs => mapWith cs f } }

/-- Changes one channel state. -/
def onChannel (n : Fin 8) (c : Fin 16) (f : ChannelState → ChannelState) (s : State) : State :=
  { s with engine := { s.engine with channels := update s.engine.channels n fun cs => update cs c f } }

/-- Changes the record of the period in service, if there is one. -/
def onService (f : Service → Service) (s : State) : State :=
  { s with engine := { s.engine with service := s.engine.service.map f } }

def onPort (p : Port) (f : PortRecord → PortRecord) (s : State) : State :=
  { s with port := { s.port with ports := update s.port.ports (portIndex p) f } }

/-- The ring of a screen's output channel (R97): ring k belongs to screen floor(k / 16) and channel k modulo 16. -/
def ringOf (n : Fin 8) (c : Fin 16) : Fin 128 :=
  ⟨n.val * 16 + c.val, by have := n.isLt; have := c.isLt; omega⟩

/-- The screen a ring belongs to (R97). -/
def ringScreen (k : Fin 128) : Fin 8 := ⟨k.val / 16, by have := k.isLt; omega⟩

/-- The output channel a ring belongs to (R97). -/
def ringChannel (k : Fin 128) : Fin 16 := ⟨k.val % 16, by omega⟩

/-! ### The reset line -/

/-- While the reset line is held low the part stays at its reset values: nothing but the line itself acts (R186). -/
def whenRunning (s : State) (t : State) : Host.Outcome State Fault Refusal :=
  if s.system.lineHeld then .next s else .next t

/-! ### Tests of state -/

/-- The screen is out of service (R2). -/
def isOff (n : Fin 8) (s : State) : Bool := s.screens[n].state = .off

/-- A link state under which a screen plays (R3). -/
def carries : LinkState → Bool
  | .locked | .holdover => true
  | .down | .acquiring => false

/-- A period of the screen is in service (R15). -/
def inService (n : Fin 8) (s : State) : Bool :=
  match s.engine.service with
  | some v => v.screen = n
  | none => false

/-! ### The SDRAM (R97) -/

/-- The content of a word, if the part has written it since the last power-on. -/
def readWord : Memory → Nat → Option Word
  | [], _ => none
  | (b, w) :: rest, a => if a = b then some w else if a < b then none else readWord rest a

/-- Writes a word, keeping the addresses strictly rising. -/
def writeWord : Memory → Nat → Word → Memory
  | [], a, w => [(a, w)]
  | (b, v) :: rest, a, w =>
    if a < b then (a, w) :: (b, v) :: rest
    else if a = b then (a, w) :: rest
    else (b, v) :: writeWord rest a w

/-- Writes consecutive words from an address on. -/
def writeWords (m : Memory) (a : Nat) : List Word → Memory
  | [] => m
  | w :: ws => writeWords (writeWord m a w) (a + 1) ws

/-- The content of a word of the SDRAM: what the part wrote last, or what the memory came up with (R97). -/
def sdramWord (s : State) (a : Nat) : Word :=
  (readWord s.memory.sdram a).getD (Config.sdramPowerOn s.system.powerOns a)

/-- The canonical form of the SDRAM's contents: addresses strictly rising from `low` on. -/
def risingFrom (low : Nat) : Memory → Bool
  | [] => true
  | (b, _) :: rest => low ≤ b && risingFrom (b + 1) rest

/-- The SDRAM's contents are in canonical form. Every listed word is one the part has written, so no entry
stands for what an unlisted word reads as. -/
def Memory.wf (m : Memory) : Bool := risingFrom 0 m

/-! ### Reports between blocks -/

/-- The report of a link state change to the Screen Controller (section 2.3, R5). -/
def reportLink (n : Fin 8) (st : LinkState) (s : State) : State :=
  { s with mail := { s.mail with links := s.mail.links ++ [(n, st)] } }

def sendAlarm (r : AlarmReport) (s : State) : State :=
  { s with mail := { s.mail with alarms := s.mail.alarms ++ [r] } }

/-- A raise of an identity whose action is in the kind map (R134). -/
def sendRaise (id : AlarmId) (s : State) : State :=
  sendAlarm { id := id, raise := true, action := .none, atOff := false } s

/-- An absence of a condition identity (R134). -/
def sendAbsence (id : AlarmId) (s : State) : State :=
  sendAlarm { id := id, raise := false, action := .none, atOff := false } s

/-- The identity of a screen's single alarm of a kind (R134). -/
def screenAlarm (k : AlarmKind) (n : Fin 8) : AlarmId := { kind := k, scope := .screen n, index := 0 }

/-- The identity of a DEVICE alarm (R134). -/
def deviceAlarm (k : AlarmKind) (i : Nat) : AlarmId := { kind := k, scope := .device, index := i }

def sendCause (m : CauseMessage) (s : State) : State :=
  { s with mail := { s.mail with causes := s.mail.causes ++ [m] } }

def sendAdvance (a : Advance) (s : State) : State :=
  { s with mail := { s.mail with advances := s.mail.advances ++ [a] } }

def sendOutcome (o : LoadOutcome) (s : State) : State :=
  { s with mail := { s.mail with outcomes := s.mail.outcomes ++ [o] } }

/-- The Cue Scheduler's event kinds, whose reports keep list order (R162). -/
def isCueKind : AlarmKind → Bool
  | .cueLate | .cueBlocked | .cueMark => true
  | _ => false

/-- Whether an earlier report must reach the Alarm Handler before a later one: reports of one identity are taken
as they were sent (R131, R140), the Cue Scheduler's events of a screen in list order (R162), and the absences of
an entry into OFF after the screen's raise made at a take (R9). -/
def mustPrecede (earlier later : AlarmReport) : Bool :=
  earlier.id = later.id
  || (isCueKind earlier.id.kind && isCueKind later.id.kind && earlier.id.scope = later.id.scope)
  || (later.atOff && earlier.raise && earlier.id.kind = .linkLost && earlier.id.scope = later.id.scope)

/-- The oldest report of an identity, if it is a raise (or an absence) as asked and no report before it must be
taken first, with the reports that are left. -/
def takeReport (id : AlarmId) (raise : Bool) (reports : List AlarmReport) :
    Option (AlarmReport × List AlarmReport) :=
  match takeFirst (fun r => r.id = id) reports with
  | none => none
  | some (r, rest) =>
    if r.raise = raise && (reports.takeWhile fun e => e.id ≠ id).all (fun e => !mustPrecede e r)
    then some (r, rest) else none

end Sys2Proof.Machine
end

