-- ==== Sys2Proof/Machine/Flags.lean ====
section
/-! DEFINITION. Saturations with the CLIP mark they set, and the tests behind watches and alarm levels. -/

namespace Sys2Proof.Machine

open Sys2Proof

/-- Saturation to a closed range (00_scope.md section 7). -/
def saturate (low high x : Int) : Int := max low (min high x)

/-- The internal range (R59). -/
def toInternal (x : Int) : Int := saturate (-134217728) 134217727 x

/-- The range of links and output ports (R76). -/
def toOutput (x : Int) : Int := saturate (-8388608) 8388607 x

/-- Whether the internal saturation changes the value: it then sets the CLIP mark (R60, R67, R75). -/
def clipsInternal (x : Int) : Bool := toInternal x ≠ x

/-- Whether the output saturation changes the value (R76). -/
def clipsOutput (x : Int) : Bool := toOutput x ≠ x

/-- Sets a channel's CLIP mark if `b`; it stays set for the rest of the period (R77). -/
def markClip (n : Fin 8) (c : Fin 16) (b : Bool) (s : State) : State :=
  onChannel n c (fun ch => { ch with clip := ch.clip || b }) s

/-- A watch's condition on its meter's new values (R126). -/
def watchCondition (w : Watch) (m : Meter) : Bool :=
  match w.kind with
  | .silence => m.peak ≤ w.threshold
  | .over => w.threshold ≤ m.value
  | .none => false

/-- The place of a severity in the rising order (R135). -/
def severityRank : Severity → Nat
  | .notice => 0
  | .warning => 1
  | .critical => 2

/-- `a` is at or above `b` (R135). -/
def atOrAbove (a b : Severity) : Bool := severityRank b ≤ severityRank a

/-- The row of a severity in the routing table (R146). -/
def severityRow (v : Severity) : Fin 3 :=
  match v with
  | .notice => 0
  | .warning => 1
  | .critical => 2

/-- The weight of a scope in an alarm line's scope mask (R147, R191). -/
def scopeBit : Scope → Nat
  | .screen n => n.val
  | .device => 8

/-- The level of the attention line of a port: an unacknowledged entry's severity is routed to it (R146). -/
def attention (a : AlarmHandler) (p : Port) : Bool :=
  a.active.any fun e => !e.acknowledged && (a.routes[severityRow e.severity]).getLsbD (portIndex p).val

/-- The level of an alarm line (R147). -/
def lineLevel (a : AlarmHandler) (i : Fin 4) : Bool :=
  let l := a.lines[i]
  match l.mode with
  | .off => false
  | .follow => l.follow
  | .severity =>
    a.active.any fun e =>
      !e.acknowledged && atOrAbove e.severity l.threshold && l.scopes.getLsbD (scopeBit e.id.scope)

/-- After a change of the Alarm Handler, each line that has gone from inactive to active has its went-active latch
set (R148). -/
def settleLatches (before after : AlarmHandler) : AlarmHandler :=
  { after with
    lines := mapWith after.lines fun i l =>
      { l with latch := l.latch || (!lineLevel before i && lineLevel after i) } }

/-- The level of a cue line (R164). -/
def cueLineLevel (l : CueLine) : Bool := l.pulse || l.level

/-- The ready line of a port is active while its slot is READY (R179). -/
def readyLine (r : PortRecord) : Bool :=
  match r.slot with
  | .ready _ => true
  | _ => false

end Sys2Proof.Machine
end

