-- ==== Sys2Proof/Machine/Chain.lean ====
section
/-! DEFINITION. The arithmetic of the equalisation chain: sections, fades, polarity, gain, output (chapter 4), and what a
delay ring supplies (R111). -/

namespace Sys2Proof.Machine

open Sys2Proof

/-! ### Equaliser sections -/

/-- The exact sum of a section (R60). -/
def sectionSum (f : Section) (h : History) (x : Sample) : Int :=
  f.b0 * x + f.b1 * h.x1 + f.b2 * h.x2 - f.a1 * h.y1 - f.a2 * h.y2

/-- The raw output of a section: the sum over the coefficient scale, halves taken upward (R60). -/
def sectionRaw (f : Section) (h : History) (x : Sample) : Int :=
  Int.fdiv (sectionSum f h x + 2 ^ 23) (2 ^ 24)

/-- A section's history after one sample (R60). -/
def sectionNext (f : Section) (h : History) (x : Sample) : History :=
  { x1 := x, x2 := h.x1, y1 := toInternal (sectionRaw f h x), y2 := h.y1 }

/-- A section over a run of samples: outputs, final history, and whether a saturation changed a value (R60). -/
def runSection (f : Section) : History → Samples → Samples × History × Bool
  | h, [] => ([], h, false)
  | h, x :: xs =>
    let (ys, h', clip) := runSection f (sectionNext f h x) xs
    (toInternal (sectionRaw f h x) :: ys, h', clipsInternal (sectionRaw f h x) || clip)

/-- What the section stage of a channel leaves: its values, its histories, and whether it clipped. -/
structure StageResult where
  values    : Samples
  histories : Vector History 12
  clip      : Bool

/-- Section `k` of a channel, if it is in use; a section not in use is passed over and keeps its history (R61). -/
def applySection (r : ChannelRecord) (k : Fin 12) (acc : StageResult) : StageResult :=
  if r.sections[k].inUse then
    let (ys, h, clip) := runSection r.sections[k] acc.histories[k] acc.values
    { values := ys, histories := update acc.histories k fun _ => h, clip := acc.clip || clip }
  else acc

/-- The sections of a channel in index order, over the period's source values (R58 stage 1, R61). A section's
outputs depend on its own inputs only, so the period is taken section by section. -/
def sectionStage (r : ChannelRecord) (hs : Vector History 12) (xs : Samples) : StageResult :=
  (List.finRange 12).foldl (fun acc k => applySection r k acc) { values := xs, histories := hs, clip := false }

/-- Section histories after a swap: a section newly in use starts from rest, every other keeps its values (R62). -/
def historiesAfterSwap (old new : ChannelRecord) (hs : Vector History 12) : Vector History 12 :=
  mapWith hs fun k h => if !old.sections[k].inUse && new.sections[k].inUse then restHistory else h

/-! ### The delay -/

/-- The settling of a channel's delay at the start of a processed period (R64): read delay, fade, and the
channel state afterwards, from the bank delay. -/
def settleDelay (bankDelay : Nat) (ch : ChannelState) : Nat × Fade × ChannelState :=
  match ch.target with
  | none =>
    if bankDelay = ch.delayInUse then (ch.delayInUse, .none, ch)
    else (ch.delayInUse, .fadeOut, { ch with target := some bankDelay })
  | some t =>
    if bankDelay = t then (t, .fadeIn, { ch with delayInUse := t, target := none })
    else if bankDelay = ch.delayInUse then (ch.delayInUse, .none, { ch with target := none })
    else (ch.delayInUse, .fadeOut, { ch with target := some bankDelay })

/-- The fade of sample `i` (R65). -/
def fadeSample (f : Fade) (i : Nat) (v : Sample) : Sample :=
  match f with
  | .none => v
  | .fadeOut => Int.tdiv (v * (47 - (i : Int))) 48
  | .fadeIn => Int.tdiv (v * ((i : Int) + 1)) 48

/-- A ring record after a program write (R110). -/
def ringAfterProgram (r : RingRecord) : RingRecord :=
  { writeIndex := (r.writeIndex + 48) % Config.ringLength
    history := if r.zeros = 0 then min (r.history + 1) Config.ringPeriods else 1
    zeros := 0 }

/-- A ring record after a zero write (R110). -/
def ringAfterZeros (r : RingRecord) : RingRecord :=
  { writeIndex := (r.writeIndex + 48) % Config.ringLength
    history := min (r.history + 1) Config.ringPeriods
    zeros := min (r.zeros + 1) Config.ringPeriods }

/-- A ring record after a restart of the history (R112). -/
def ringRestarted (r : RingRecord) : RingRecord := { r with history := 0, zeros := 0 }

/-- The distance of sample `i` at read delay `d` from the write index after the period's write (R111). -/
def ringDistance (d i : Nat) : Nat := 48 + d - i

/-- Sample `i` at read delay `d` is read from memory: it lies within the valid history and outside the zero run
(R111), by the ring record after the write. -/
def readsMemory (r : RingRecord) (d i : Nat) : Bool :=
  48 * r.zeros < ringDistance d i && ringDistance d i ≤ 48 * r.history

/-- The samples of a period that a read at delay `d` takes from memory, in order (R111). -/
def memorySamples (r : RingRecord) (d : Nat) : List Nat := (List.range 48).filter (readsMemory r d)

/-- The ring position of sample `i` at read delay `d`, for the record after the write (R111): the write index
before the write less `d` plus `i`, round the ring. -/
def readPosition (r : RingRecord) (d i : Nat) : Nat :=
  (r.writeIndex + 2 * Config.ringLength - 48 - d + i) % Config.ringLength

/-- The SDRAM word of a ring position (R97, R98). -/
def ringWord (k : Fin 128) (position : Nat) : Nat :=
  Config.ringBase + k.val * Config.ringLength + position % Config.ringLength

/-- A sample as a word of the ring, sign-extended (R98). -/
def sampleToWord (v : Sample) : Word := BitVec.ofInt 32 v

/-- A word read from a ring as a sample: its low 28 bits, signed (R98). -/
def wordToSample (w : Word) : Sample := (w.setWidth 28).toInt

/-- The 48 read values of a period when the samples from `first` on, as many as `vs` has, come from the memory
and the others are supplied as 0 (R111). -/
def placeRead (first : Nat) (vs : Samples) : Samples :=
  (List.range 48).map fun i => if first ≤ i then vs.getD (i - first) 0 else 0

/-! ### Polarity, gain and output -/

/-- The polarity stage before its saturation (R67). -/
def polarity (invert : Bool) (v : Sample) : Int := if invert then -v else v

/-- The combined gain of a channel (R75). -/
def combinedGain (trim gain factor : Nat) : Nat := trim * gain / 2 ^ 18 * factor / 8

/-- The gain stage before its saturation: halves taken upward (R75). -/
def applyGain (g : Nat) (v : Sample) : Int := Int.fdiv (v * g + 2 ^ 17) (2 ^ 18)

/-- One sample through the fade, polarity, gain and output stages (R65, R67, R75, R76): the output sample, and
whether one of the three saturations changed a value (R77). -/
def outputSample (f : Fade) (invert : Bool) (g : Nat) (i : Nat) (v : Sample) : Sample × Bool :=
  let p := polarity invert (fadeSample f i v)
  let a := applyGain g (toInternal p)
  (toOutput (toInternal a), clipsInternal p || clipsInternal a || clipsOutput (toInternal a))

/-- A channel's read values through the stages after the ring: the 48 output samples, and the CLIP mark the
stages set. -/
def outputStage (f : Fade) (invert : Bool) (g : Nat) (vs : Samples) : Samples × Bool :=
  let rs := (List.range 48).map fun i => outputSample f invert g i (vs.getD i 0)
  (rs.map Prod.fst, rs.any Prod.snd)

end Sys2Proof.Machine
end

