-- ==== Sys2Proof/Machine/BankOps.lean ====
section
/-! DEFINITION. The Bank Controller: stability, the swap, and the words of a channel record (chapter 5). -/

namespace Sys2Proof.Machine

open Sys2Proof

/-- The stability test of one section: it is not in use, or |a2| < 2^24 and |a1| < 2^24 + a2 (R83). -/
def stableSection (f : Section) : Bool :=
  !f.inUse || ((f.a2.natAbs : Int) < 2 ^ 24 && (f.a1.natAbs : Int) < 2 ^ 24 + f.a2)

/-- Channels 0..15 in order and, within each, sections 0..11 in order (R83). -/
def sectionOrder : List (Fin 16 × Fin 12) :=
  allChannels.flatMap fun c => (List.finRange 12).map fun k => (c, k)

/-- The first section of a bank that fails the stability test (R83). -/
def firstUnstable (b : Bank) : Option (Fin 16 × Fin 12) :=
  sectionOrder.find? fun ck => !stableSection b[ck.1].sections[ck.2]

/-- A bank whose every in-use section passes (R83, R84). -/
def stableBank (b : Bank) : Bool := (firstUnstable b).isNone

/-- Every channel of a screen takes its bank delay as its delay in use, with no pending target (R66). -/
def settleDelays (n : Fin 8) (s : State) : State :=
  onChannels n (fun c ch => { ch with delayInUse := s.bank.banks[n][c].delay, target := none }) s

/-- The screen's staged bank swap, if its draft is COMMITTING: the draft's content becomes the active bank, the
draft is removed, and section histories carry over by R62 (R84). -/
def swapBank (n : Fin 8) (s : State) : State :=
  match s.bank.drafts[n] with
  | some d =>
    match d.state, d.content with
    | .committing, some b =>
      let old := s.bank.banks[n]
      let s1 := onChannels n (fun c ch =>
        { ch with histories := historiesAfterSwap old[c] b[c] ch.histories }) s
      onDraft n (fun _ => none) (onBank n b s1)
    | _, _ => s
  | none => s

/-- The bank swap at a period start or at entry into OFF, with its mark in the screen context cleared (R2, R84). -/
def applySwap (n : Fin 8) (s : State) : State :=
  onScreen n (fun c => { c with swapMark := false }) (swapBank n s)

/-- A draft that has just become COMMITTING: the swap is made at once on an OFF screen, where the delays settle
with it (R66); otherwise it is staged and marked (R83, R92). -/
def stageSwap (n : Fin 8) (s : State) : State :=
  if isOff n s then settleDelays n (swapBank n s)
  else onScreen n (fun c => { c with swapMark := true }) s

/-! ### The words of a channel record -/

/-- The placing of the flags within the flag word: in-use of section k at weight 2^k, polarity-invert at 2^16
(R189). -/
def flagWord (r : ChannelRecord) : Word :=
  (List.finRange 12).foldl (fun w k => if r.sections[k].inUse then w ||| BitVec.ofNat 32 (2 ^ k.val) else w)
    (if r.invert then BitVec.ofNat 32 (2 ^ 16) else 0)

/-- The five codes of a section, b0 first (R88). -/
def sectionWords (f : Section) : List Word :=
  [f.b0, f.b1, f.b2, f.a1, f.a2].map (BitVec.ofInt 32)

/-- The 64 words of a channel record (R88, R189). -/
def recordWords (r : ChannelRecord) : List Word :=
  (r.sections.toList.flatMap sectionWords)
    ++ [BitVec.ofNat 32 r.trim, BitVec.ofNat 32 r.delay, flagWord r, 0]

/-- The 1,024 channel-record words of a bank, channel 0 first (R88). -/
def bankWords (b : Bank) : List Word := b.toList.flatMap recordWords

/-- The check value of channel-record words: their sum, exclusive-ORed with 1,024 (R88). -/
def checkValue (ws : List Word) : Word := ws.foldl (· + ·) 0 ^^^ 1024

/-- The image of a bank under a tag: header, then channel records (R88). -/
def imageOf (tag : Word) (b : Bank) : List Word :=
  [tag, 1024, checkValue (bankWords b), 1] ++ bankWords b

/-- Section `k` of a channel record's words (R88). -/
def parseSection (ws : List Word) (k : Fin 12) : Section :=
  let code := fun j => (ws.getD (5 * k.val + j) 0).toInt
  { inUse := (ws.getD 62 0).getLsbD k.val, b0 := code 0, b1 := code 1, b2 := code 2, a1 := code 3, a2 := code 4 }

/-- A channel record from its 64 words (R88). -/
def parseRecord (ws : List Word) : ChannelRecord :=
  { sections := Vector.ofFn (parseSection ws)
    trim := (ws.getD 60 0).toNat
    delay := (ws.getD 61 0).toNat
    invert := (ws.getD 62 0).getLsbD 16 }

/-- The words of channel `c` among the channel-record words. -/
def channelWords (ws : List Word) (c : Nat) : List Word := (ws.drop (64 * c)).take 64

/-- A bank from its 1,024 channel-record words (R88). -/
def parseBank (ws : List Word) : Bank := Vector.ofFn fun c => parseRecord (channelWords ws c.val)

/-- A coefficient code is in its range (R78). -/
def codeInRange (x : Int) : Bool := -134217728 ≤ x && x ≤ 134217727

/-- The channel record words are within the ranges of R92: coefficients, trim, delay, flags, word 63. -/
def recordGood (ws : List Word) : Bool :=
  (ws.take 60).all (fun w => codeInRange w.toInt)
  && (ws.getD 60 0).toNat ≤ Config.maxGain
  && (ws.getD 61 0).toNat ≤ Config.maxDelay
  && (ws.getD 62 0 &&& ~~~(0x10FFF : Word)) = 0
  && ws.getD 63 0 = 0

/-- The image in the transfer buffer is good against a slot's directory entry (R92). -/
def imageGood (slot : Slot) (image : List Word) : Bool :=
  let ws := image.drop 4
  checkValue ws = slot.check
  && image.getD 2 0 = slot.check
  && image.getD 0 0 = slot.tag
  && image.getD 1 0 = 1024
  && image.getD 3 0 = 1
  && (List.range 16).all fun c => recordGood (channelWords ws c)

end Sys2Proof.Machine
end

