-- ==== Sys2Proof/Machine/MemoryOps.lean ====
section
/-! DEFINITION. The Memory Controller: grants, ring transfers and bursts on the bus, restarts of histories (chapter 6), and
the ring stage of a channel of the period in service (R109 to R111). -/

namespace Sys2Proof.Machine

open Sys2Proof

def setBus (b : BusOperation) (s : State) : State := { s with memory := { s.memory with bus := b } }

/-- The bus carries nothing and the controller is READY, so that it may grant (R105). -/
def busFree (s : State) : Bool := s.memory.state = .ready && s.memory.bus = .none

/-! ### Bursts (R107) -/

/-- The first SDRAM word of a burst: burst b of 1..32 carries channel-record words, the 33rd the header. -/
def burstAddress (b : Burst) : Nat :=
  b.slot.val * Config.slotPitch + (if b.number ≤ 32 then 4 + (b.number - 1) * 32 else 0)

/-- The place of a burst's first word in the transfer buffer. -/
def burstOffset (b : Burst) : Nat := if b.number ≤ 32 then 4 + (b.number - 1) * 32 else 0

/-- The words a burst carries: 32, or 4 for the header burst. -/
def burstLength (b : Burst) : Nat := if b.number ≤ 32 then 32 else 4

/-- The words of the transfer buffer that a write burst carries. -/
def burstWords (buffer : List Word) (b : Burst) : List Word := (buffer.drop (burstOffset b)).take (burstLength b)

/-- The transfer buffer with the words of a read burst placed in it. -/
def placeWords (buffer : List Word) (b : Burst) (ws : List Word) : List Word :=
  buffer.take (burstOffset b) ++ ws ++ buffer.drop (burstOffset b + ws.length)

/-! ### Grants (R105) -/

def startRefresh (forced : Bool) (s : State) : State :=
  { s with
    memory := { s.memory with
      bus := .refresh
      forced := if forced then min (s.memory.forced + 1) 65535 else s.memory.forced } }

/-- Grants the free bus to the first that applies: a forced refresh, the oldest ring transfer, the library
request, an opportunistic refresh (R104, R105). -/
def grantBus (s : State) : State :=
  if busFree s then
    if Config.forcedRefreshAt ≤ s.memory.pending then startRefresh true s
    else match s.memory.ringList with
      | t :: rest => { s with memory := { s.memory with bus := .ring t true, ringList := rest } }
      | [] => match s.memory.libraryRequest with
        | some b =>
          let words := if b.write then burstWords s.library.buffer b else []
          { s with memory := { s.memory with bus := .burst b words true, libraryRequest := none } }
        | none => if s.memory.pending = 0 then s else startRefresh false s
  else s

/-! ### Rings -/

/-- Restarts the histories of a screen's sixteen rings (R112). -/
def restartRings (n : Fin 8) (s : State) : State :=
  { s with
    memory := { s.memory with
      rings := mapWith s.memory.rings fun k r => if ringScreen k = n then ringRestarted r else r } }

/-- The transfers of the period in service that are in the list are withdrawn; one on the bus completes without
effect on its ring record (R113). -/
def withdrawTransfers (s : State) : State :=
  { s with
    memory := { s.memory with
      ringList := []
      bus := match s.memory.bus with
        | .ring t _ => .ring t false
        | b => b } }

/-- The words of a ring from a ring position on take the samples given (R98). -/
def writeRing (m : Memory) (k : Fin 128) (position : Nat) : Samples → Memory
  | [] => m
  | v :: vs => writeRing (writeWord m (ringWord k position) (sampleToWord v)) k (position + 1) vs

/-- The samples of a ring from a ring position on (R98). -/
def readRing (s : State) (k : Fin 128) (position count : Nat) : Samples :=
  (List.range count).map fun j => wordToSample (sdramWord s (ringWord k (position + j)))

def joinRing (t : RingTransfer) (s : State) : State :=
  { s with memory := { s.memory with ringList := s.memory.ringList ++ [t] } }

/-! ### The ring stage of a channel of the period in service (R109) -/

def onWork (c : Fin 16) (f : ChannelWork → ChannelWork) (s : State) : State :=
  onService (fun v => { v with channels := update v.channels c f }) s

/-- The channel record the period uses (R58). -/
def periodRecord (v : Service) (c : Fin 16) (s : State) : ChannelRecord := s.bank.banks[v.screen][c]

/-- The read of a channel is settled: its values pass the stages after the ring, and the channel is done (R58
stages 3 to 6, R109). -/
def finishChannel (v : Service) (c : Fin 16) (vs : Samples) (s : State) : State :=
  let r := periodRecord v c s
  let out := outputStage v.channels[c].fade r.invert (combinedGain r.trim v.gain v.factor) vs
  onWork c (fun w => { w with stage := .done, output := out.1 }) (markClip v.screen c out.2 s)

/-- Settles a channel's read once its write is settled (R111): bypassed at read delay 0, all zeros without a
transfer, or a read transfer of the samples that lie in memory. -/
def settleRead (v : Service) (c : Fin 16) (post : Samples) (s : State) : State :=
  let d := v.channels[c].readDelay
  let k := ringOf v.screen c
  let r := s.memory.rings[k]
  if d = 0 then finishChannel v c post s
  else match memorySamples r d with
    | [] => finishChannel v c silence s
    | first :: more =>
      joinRing (.read k (readPosition r d first) (more.length + 1))
        (onWork c (fun w => { w with stage := .read first }) s)

/-- The section stage of a channel is finished: its histories, its CLIP mark and its post-equaliser values
are in place, and the ring stage settles its write (R109, R110). -/
def finishSections (v : Service) (c : Fin 16) (s : State) : State :=
  let r := periodRecord v c s
  let res := sectionStage r s.engine.channels[v.screen][c].histories v.sources[c]
  let k := ringOf v.screen c
  let s1 := onChannel v.screen c
    (fun ch => { ch with histories := res.histories, clip := ch.clip || res.clip }) s
  if 0 < r.delay then
    joinRing (.write k s.memory.rings[k].writeIndex res.values)
      (onWork c (fun w => { w with post := res.values, stage := .write }) s1)
  else
    settleRead v c res.values
      (onRing k ringAfterZeros (onWork c (fun w => { w with post := res.values }) s1))

/-- A ring transfer on the bus completes (R98, R110, R111, R113). -/
def completeTransfer (t : RingTransfer) (live : Bool) (s : State) : State :=
  match t with
  | .write k start values =>
    let s1 := { s with memory := { s.memory with bus := .none, sdram := writeRing s.memory.sdram k start values } }
    if live then
      match s1.engine.service with
      | some v => settleRead v (ringChannel k) values (onRing k ringAfterProgram s1)
      | none => s1
    else s1
  | .read k start count =>
    let s1 := setBus .none s
    if live then
      match s1.engine.service with
      | some v =>
        match v.channels[ringChannel k].stage with
        | .read first => finishChannel v (ringChannel k) (placeRead first (readRing s k start count)) s1
        | _ => s1
      | none => s1
    else s1

end Sys2Proof.Machine
end

