-- ==== Sys2Proof/Machine/LibraryOps.lean ====
section
/-! DEFINITION. The Library Engine: the library queue, transfers burst by burst, saves, loads, discarded loads, and the
EQ_SELECT hand-off (sections 5.4 to 5.7). -/

namespace Sys2Proof.Machine

open Sys2Proof

/-- The entry is a load that serves the screen's draft (R89, R93). -/
def servesDraft (n : Fin 8) (e : LibraryEntry) : Bool := e.task = .load && e.screen = n && !e.discarded

def lowerPending (k : Fin 48) (s : State) : State := onSlot k (fun d => { d with pending := d.pending - 1 }) s

/-- Adds a LOAD for a screen's draft to the queue (R80, R96). -/
def queueLoad (k : Fin 48) (n : Fin 8) (s : State) : State :=
  let s1 := onSlot k (fun d => { d with pending := d.pending + 1 }) s
  { s1 with
    library := { s1.library with
      queue := s1.library.queue ++ [{ task := .load, slot := k, screen := n, discarded := false }] } }

/-- The entry in progress leaves the queue, and the engine is idle (R89). -/
def retireHead (s : State) : State :=
  { s with library := { s.library with queue := s.library.queue.tail, progress := none } }

/-- A burst of the transfer in progress is on the bus. -/
def burstOnBus (s : State) : Bool :=
  match s.memory.bus with
  | .burst _ _ live => live
  | _ => false

/-- The unstarted load of a screen's draft is removed from the queue entries given, with its slot (R93). -/
def withoutLoad (n : Fin 8) (q : List LibraryEntry) : Option (LibraryEntry × List LibraryEntry) :=
  takeFirst (servesDraft n) q

/-- The load of a removed LOADING draft (R93): removed if it has not started; if it is in progress, discarded when
the burst on the bus completes, or at once when none of its bursts is on the bus, its waiting request withdrawn. -/
def dropLoad (n : Fin 8) (s : State) : State :=
  match s.library.progress, s.library.queue with
  | some _, e :: rest =>
    if servesDraft n e then
      let s1 := { s with memory := { s.memory with libraryRequest := none } }
      if burstOnBus s then
        { s1 with library := { s1.library with queue := { e with discarded := true } :: rest } }
      else lowerPending e.slot (retireHead s1)
    else match withoutLoad n rest with
      | some (d, rest') => lowerPending d.slot { s with library := { s.library with queue := e :: rest' } }
      | none => s
  | none, q =>
    match withoutLoad n q with
    | some (d, q') => lowerPending d.slot { s with library := { s.library with queue := q' } }
    | none => s
  | some _, [] => s

/-- Library queue entries that count toward a full queue when the screen's draft is to be replaced: its own load
counts only once it has started (R80, R96). -/
def queueCount (n : Fin 8) (s : State) : Nat :=
  match s.library.progress, s.library.queue with
  | some _, _ :: rest => 1 + (rest.filter fun e => !servesDraft n e).length
  | _, q => (q.filter fun e => !servesDraft n e).length

/-- Removes a screen's draft without a swap, with its load (R85, R93). -/
def removeDraft (n : Fin 8) (s : State) : State :=
  match s.bank.drafts[n] with
  | some d =>
    let s1 := onDraft n (fun _ => none) s
    if d.state = .loading then dropLoad n s1 else s1
  | none => s

/-! ### Transfers -/

/-- The engine asks for burst `k` of the transfer in progress (R89, R107). -/
def askBurst (slot : Fin 48) (k : Nat) (write : Bool) (s : State) : State :=
  { s with memory := { s.memory with libraryRequest := some { slot := slot, number := k, write := write } } }

/-- An entry is a save. -/
def isSave (e : LibraryEntry) : Bool :=
  match e.task with
  | .save _ => true
  | .load => false

/-- The idle engine starts the oldest entry; a save captures the active bank (R89, R91, R92). -/
def startEntry (s : State) : State :=
  match s.library.progress, s.library.queue with
  | none, e :: _ =>
    let buffer := match e.task with
      | .save tag => imageOf tag s.bank.banks[e.screen]
      | .load => s.library.buffer
    askBurst e.slot 1 (isSave e) { s with library := { s.library with progress := some 0, buffer := buffer } }
  | _, _ => s

/-- A save completes: the slot becomes VALID with the entry's tag and the computed check value (R91). -/
def completeSave (e : LibraryEntry) (tag : Word) (s : State) : State :=
  let check := s.library.buffer.getD 2 0
  sendRaise (deviceAlarm .libraryDone e.slot.val)
    (onSlot e.slot (fun d => { d with state := .valid, tag := tag, check := check }) (retireHead s))

/-- A good image reaches the draft it was loaded for (R92). -/
def deliverGood (n : Fin 8) (b : Bank) (s : State) : State :=
  match s.bank.drafts[n] with
  | some d =>
    if d.state = .loading then
      match d.holder with
      | .port _ _ => onDraft n (fun _ => some { d with state := .editable, content := some b }) s
      | .cue id =>
        if stableBank b then
          stageSwap n (onDraft n (fun _ => some { d with state := .committing, content := some b }) s)
        else
          sendOutcome { screen := n, cue := id, unstable := true } (onDraft n (fun _ => none) s)
    else s
  | none => s

/-- An image that is not good: the draft it was loaded for is removed, and the Cue Scheduler is told CORRUPT of a
CUE draft (R92). -/
def deliverCorrupt (n : Fin 8) (s : State) : State :=
  match s.bank.drafts[n] with
  | some d =>
    if d.state = .loading then
      match d.holder with
      | .port _ _ => onDraft n (fun _ => none) s
      | .cue id => sendOutcome { screen := n, cue := id, unstable := false } (onDraft n (fun _ => none) s)
    else s
  | none => s

/-- A load completes: the image is checked, and its outcome reaches the draft (R92). -/
def completeLoad (e : LibraryEntry) (s : State) : State :=
  let image := s.library.buffer
  let s1 := lowerPending e.slot (retireHead s)
  if imageGood s.library.slots[e.slot] image then deliverGood e.screen (parseBank (image.drop 4)) s1
  else sendRaise (deviceAlarm .libraryCorrupt e.slot.val) (deliverCorrupt e.screen s1)

/-- The completion of a burst is reported to the engine: a discarded load completes unchecked (R93), the 33rd burst
completes its entry, and otherwise the count rises. -/
def reportBurst (s : State) : State :=
  match s.library.progress, s.library.queue with
  | some k, e :: _ =>
    if e.discarded then lowerPending e.slot (retireHead s)
    else if k + 1 < Config.transferBursts then
      { s with library := { s.library with progress := some (k + 1) } }
    else match e.task with
      | .save tag => completeSave e tag s
      | .load => completeLoad e s
  | _, _ => s

/-- The engine asks for the burst after those completed, if its entry is still in progress (R89, R107). -/
def askNext (s : State) : State :=
  match s.library.progress, s.library.queue with
  | some k, e :: _ => askBurst e.slot (k + 1) (isSave e) s
  | _, _ => s

/-- A burst on the bus completes (R87, R107): a write burst's words are in the memory; a live read burst's words
are placed in the buffer; a live burst's completion is reported. Then the request for the next burst and the
freeing of the bus are taken, the request first or the freeing first. -/
def completeBurst (b : Burst) (words : List Word) (live requestFirst : Bool) (s : State) : State :=
  let s1 := setBus .none s
  let s2 := if b.write then
      { s1 with memory := { s1.memory with sdram := writeWords s1.memory.sdram (burstAddress b) words } }
    else if live then
      let read := (List.range (burstLength b)).map fun j => sdramWord s (burstAddress b + j)
      { s1 with library := { s1.library with buffer := placeWords s1.library.buffer b read } }
    else s1
  if live then
    let s3 := reportBurst s2
    if s3.library.progress.isSome then
      if requestFirst then askNext s3 else askNext (grantBus s3)
    else s3
  else s2

/-! ### EQ_SELECT (R96) -/

/-- The screen's draft is held by a port. -/
def portHeld (n : Fin 8) (s : State) : Bool :=
  match s.bank.drafts[n] with
  | some d => match d.holder with
    | .port _ _ => true
    | .cue _ => false
  | none => false

/-- An EQ_SELECT hand-off is BLOCKED (R96). -/
def eqBlocked (n : Fin 8) (k : Fin 48) (s : State) : Bool :=
  portHeld n s || s.library.slots[k].state ≠ .valid || Config.libraryQueueDepth ≤ queueCount n s

/-- An accepted EQ_SELECT hand-off: an existing CUE draft is removed in any state, a CUE draft is created, its load
is queued (R96). A swap that ceases to wait clears its mark (R2). -/
def acceptEqSelect (n : Fin 8) (k : Fin 48) (id : Nat) (s : State) : State :=
  let s1 := onScreen n (fun c => { c with swapMark := false }) (removeDraft n s)
  queueLoad k n (onDraft n (fun _ =>
    some { holder := .cue id, state := .loading, origin := .library k, content := none }) s1)

end Sys2Proof.Machine
end

