-- ==== Sys2Proof/Machine/AlarmOps.lean ====
section
/-! DEFINITION. The Alarm Handler: raises, absences, acknowledgements, log, snapshots (chapter 8). -/

namespace Sys2Proof.Machine

open Sys2Proof

/-- The row of a kind in the kind map: its code of R190 less 1. -/
def kindRow : AlarmKind → Fin 14
  | .silence => 0 | .over => 1 | .clip => 2 | .linkLost => 3 | .linkOverrun => 4 | .linkMismatch => 5
  | .engineLate => 6 | .cueLate => 7 | .cueBlocked => 8 | .cueMark => 9 | .draftExpired => 10
  | .relayFault => 11 | .libraryCorrupt => 12 | .libraryDone => 13

/-- The kinds that are conditions (R134). -/
def isCondition : AlarmKind → Bool
  | .silence | .over | .linkLost | .relayFault => true
  | _ => false

/-- The kinds whose action comes from the watch (R135). -/
def isWatchKind : AlarmKind → Bool
  | .silence | .over => true
  | _ => false

/-- The kinds of DEVICE scope (R134). -/
def isDeviceKind : AlarmKind → Bool
  | .relayFault | .libraryCorrupt | .libraryDone => true
  | _ => false

/-- How many indices a kind has (R134). -/
def indexCount : AlarmKind → Nat
  | .silence | .over => 32
  | .clip => 16
  | .relayFault => 8
  | .libraryCorrupt | .libraryDone => 48
  | _ => 1

/-- An identity of the table of R134. -/
def validId (id : AlarmId) : Bool :=
  id.index < indexCount id.kind && (match id.scope with
    | .screen _ => !isDeviceKind id.kind
    | .device => isDeviceKind id.kind)

/-- The entry of an identity in the active alarm set (R137). -/
def findEntry (a : AlarmHandler) (id : AlarmId) : Option ActiveEntry := a.active.find? fun e => e.id = id

/-- Changes the Alarm Handler, the alarm lines' latches following at once (R138, R147, R148). -/
def changeAlarm (f : AlarmHandler → AlarmHandler) (s : State) : State :=
  { s with alarm := settleLatches s.alarm (f s.alarm) }

/-- Adds an entry to the log; when it holds 64, the oldest is removed first (R143). -/
def addLog (count : Word) (id : AlarmId) (sev : Severity) (raised : Bool) (a : AlarmHandler) : AlarmHandler :=
  let kept := if Config.logDepth ≤ a.log.length then a.log.tail else a.log
  { a with
    log := kept ++ [{ sequence := a.nextSequence, period := count, id := id, severity := sev, raised := raised }]
    nextSequence := a.nextSequence + 1 }

/-- The action a raise uses: the watch's for SILENCE and OVER, the kind map's otherwise (R138). -/
def raiseAction (a : AlarmHandler) (r : AlarmReport) : AlarmAction :=
  if isWatchKind r.id.kind then r.action else a.kindMap[kindRow r.id.kind].action

/-- The severity a raise captures (R138). -/
def raiseSeverity (a : AlarmHandler) (r : AlarmReport) : Severity := a.kindMap[kindRow r.id.kind].severity

/-- The position a raise records: the screen's current position while it is known; none for DEVICE scope, and none
for LINK_LOST (R138). -/
def raisePosition (s : State) (id : AlarmId) : Option Word :=
  match id.scope with
  | .screen n =>
    if id.kind ≠ .linkLost && s.links[n].known then some s.links[n].lastPosition else none
  | .device => none

/-- The entry of an identity after a raise (R138 steps 1 to 4). -/
def raisedEntry (s : State) (r : AlarmReport) : ActiveEntry :=
  let old := findEntry s.alarm r.id
  { id := r.id
    severity := raiseSeverity s.alarm r
    action := raiseAction s.alarm r
    present := isCondition r.id.kind
    acknowledged := false
    count := match old with
      | some e => min (e.count + 1) 255
      | none => 1
    firstRaise := match old with
      | some e => e.firstRaise
      | none => s.system.housePeriods
    latestRaise := s.system.housePeriods
    position := raisePosition s r.id }

/-- The snapshots after a raise: one is taken when the identity has screen scope, the severity captured is at or
above the snapshot level, and the screen's snapshot is not held (R144). -/
def snapshotsAfter (s : State) (e : ActiveEntry) : Vector (Option Snapshot) 8 :=
  match e.id.scope with
  | .screen n =>
    if atOrAbove e.severity s.alarm.snapshotLevel && (s.alarm.snapshots[n]).isNone then
      update s.alarm.snapshots n fun _ =>
        some { id := e.id, period := s.system.housePeriods, position := e.position
               values := mapWith s.meter.meters[n] fun _ m => m.value }
    else s.alarm.snapshots
  | .device => s.alarm.snapshots

/-- The Alarm Handler's record after a raise (R138 steps 1 to 6). -/
def alarmAfterRaise (s : State) (r : AlarmReport) : AlarmHandler :=
  let e := raisedEntry s r
  addLog s.system.housePeriods r.id e.severity true
    { s.alarm with
      active := s.alarm.active.filter (fun x => x.id ≠ r.id) ++ [e]
      snapshots := snapshotsAfter s e }

/-- Carries out an action on the screen of an identity (R139). -/
def carryOut (act : AlarmAction) (id : AlarmId) (s : State) : State :=
  match id.scope with
  | .screen n =>
    match act with
    | .none => s
    | .fallback => sendCause { screen := n, id := id, add := true, stale := false } s
    | .holdCues =>
      { s with mail := { s.mail with holds := s.mail.holds ++ [{ screen := n, ofCue := isCueKind id.kind }] } }
  | .device => s

/-- The Alarm Handler takes a raise (R138, R139). -/
def takeRaise (r : AlarmReport) (s : State) : State :=
  carryOut (raiseAction s.alarm r) r.id (changeAlarm (fun _ => alarmAfterRaise s r) s)

/-- Removes the entries that are acknowledged and whose condition is absent (R141). -/
def dropSettled (a : AlarmHandler) : AlarmHandler :=
  { a with active := a.active.filter fun e => e.present || !e.acknowledged }

/-- The Alarm Handler takes the absence of a condition (R140). -/
def takeAbsence (id : AlarmId) (s : State) : State :=
  match findEntry s.alarm id with
  | some e =>
    if e.present then
      let s1 := changeAlarm (fun a =>
        dropSettled (addLog s.system.housePeriods id e.severity false
          { a with active := a.active.map fun x => if x.id = id then { x with present := false } else x })) s
      match id.scope with
      | .screen n => sendCause { screen := n, id := id, add := false, stale := false } s1
      | .device => s1
    else s
  | none => s

/-- Acknowledges the entries that satisfy `p` (R141). -/
def acknowledge (p : ActiveEntry → Bool) (s : State) : State :=
  changeAlarm (fun a =>
    dropSettled { a with active := a.active.map fun e => if p e then { e with acknowledged := true } else e }) s

end Sys2Proof.Machine
end

