-- ==== Sys2Proof/Machine/RelayOps.lean ====
section
/-! DEFINITION. The Relay Bus Master: requests and the queue, outcomes, recovery, the stretch count (chapter 10). -/

namespace Sys2Proof.Machine

open Sys2Proof

def onRelay (f : RelayMaster → RelayMaster) (s : State) : State := { s with relay := f s.relay }

def onExpander (e : Fin 8) (f : Expander → Expander) (s : State) : State :=
  onRelay (fun r => { r with expanders := update r.expanders e f }) s

def onFlight (f : Flight → Flight) (s : State) : State := onRelay (fun r => { r with flight := r.flight.map f }) s

/-- The outputs an expander has, as a mask (R167). -/
def outputMask (wide : Bool) : Half := if wide then 0xFFFF#16 else 0x00FF#16

/-- The desired image after a request: outputs under the mask take their values, the others keep theirs (R169). -/
def imageAfter (e : Expander) (mask values : Half) : Half :=
  let m := mask &&& outputMask e.wide
  (e.desired &&& ~~~m) ||| (values &&& m)

/-- A relay request taken for a present expander (R169, R170): folded into the expander's unstarted entry, or
appended. -/
def relayRequest (e : Fin 8) (mask values : Half) (s : State) : State :=
  let s1 := onExpander e (fun x => { x with desired := imageAfter x mask values }) s
  if s1.relay.unstarted.contains e then s1
  else onRelay (fun r => { r with unstarted := r.unstarted ++ [e] }) s1

/-- A bus step starts: the stretch count becomes 0 (R174). -/
def enterBus (b : BusState) (s : State) : State := onRelay (fun r => { r with bus := b, stretch := 0 }) s

/-- The bus returns to IDLE, and the transaction leaves the queue (R171). -/
def enterIdle (s : State) : State := onRelay (fun r => { r with bus := .idle, flight := none }) s

/-- The idle master takes the oldest unstarted entry in flight and captures it (R171). Its START waits for the STOP of a
transaction that a reset abandoned (R177, log entry 39). -/
def startTransaction (e : Fin 8) (rest : List (Fin 8)) (s : State) : State :=
  let x := s.relay.expanders[e]
  enterBus .start (onRelay (fun r =>
    { r with
      unstarted := rest
      pulses := 0
      flight := some
        { expander := e, image := x.desired, address := x.address, wide := x.wide, verify := x.verify
          inVerify := false, bytes := 0, value := 0, settled := false, recovering := false } }) s)

/-- The data bytes of a part of a transaction (R171). -/
def partBytes (f : Flight) : Nat := if f.wide then 2 else 1

/-- A transaction ends in success (R176). -/
def settleSuccess (f : Flight) (s : State) : State :=
  let s1 := onFlight (fun g => { g with settled := true })
    (onExpander f.expander (fun x => { x with state := .ok, confirmed := some f.image }) s)
  if s.relay.expanders[f.expander].state = .faulty
  then sendAbsence (deviceAlarm .relayFault f.expander.val) s1 else s1

/-- A transaction ends in a failure, with the confirmed image as `g` makes it of the present one (R176). -/
def settleFailure (f : Flight) (g : Option Half → Option Half) (s : State) : State :=
  sendRaise (deviceAlarm .relayFault f.expander.val)
    (onFlight (fun x => { x with settled := true })
      (onExpander f.expander (fun x => { x with state := .faulty, confirmed := g x.confirmed }) s))

/-- A failure at a point of the transaction: the confirmed image is unchanged before the first data byte of the
write part has been sent, and unknown after it (R176). -/
def confirmedAfter (f : Flight) (c : Option Half) : Option Half :=
  if !f.inVerify && f.bytes = 0 then c else none

/-- The recovery gives up (R175): both lines released, STUCK, then STOP. DESIGN CHOICE (log entry 46): the STOP state, which
gives no STOP condition then, still waits for a clock held low, as any bus step does (R174). -/
def giveUp (s : State) : State := enterBus .stop (onRelay (fun r => { r with lastRecovery := .stuck }) s)

/-- The master enters RECOVER (R175). -/
def enterRecover (s : State) : State := enterBus .recover (onFlight (fun f => { f with recovering := true }) s)

/-- The transaction in flight is abandoned by a stretch timeout outside its recovery: its outcome is a failure
unless it is already settled, and the master enters RECOVER (R174, R176). -/
def abandon (f : Flight) (s : State) : State :=
  enterRecover (if f.settled then s else settleFailure f (confirmedAfter f) s)

/-- A stretch timeout (R174, R175): a recovery pulse gives the recovery up, the STOP that ends a recovery leaves
it STUCK and the bus IDLE, and any other step abandons the transaction. DESIGN CHOICE (log entry 45): the pulse in which
the timeout falls does not count among the recovery pulses given. -/
def stretchOut (s : State) : State :=
  match s.relay.flight with
  | none => s
  | some f =>
    match s.relay.bus with
    | .idle => s
    | .recover => giveUp s
    | .stop =>
      if f.recovering then enterIdle (onRelay (fun r => { r with lastRecovery := .stuck }) s) else abandon f s
    | _ => abandon f s

/-- A stretch timeout is due: the clock is held low and the count has reached 26 (R174). -/
def stretchDue (r : RelayMaster) : Bool := r.clockHeld && r.bus ≠ .idle && Config.stretchLimit ≤ r.stretch

/-- The stretch count at a house period boundary, with the timeout it brings about (R174). -/
def stepStretch (clockLow : Bool) (s : State) : State :=
  let s1 := onRelay (fun r =>
    { r with
      clockHeld := clockLow
      stretch := if clockLow && r.bus ≠ .idle then min (r.stretch + 1) Config.stretchLimit else r.stretch }) s
  if stretchDue s1.relay then stretchOut s1 else s1

/-! ### What the master drives (R172, R173, R175) -/

/-- What the master does with the two lines: both released, a START, a byte sent most significant bit first with its ninth
clock, a byte read with or without an acknowledgement, a STOP, or a recovery pulse with the data line released. -/
inductive BusDrive where
  | released
  | start
  | byte (value : Byte)
  | readByte (acknowledges : Bool)
  | stop
  | pulse
deriving DecidableEq, Repr

/-- The address byte: the 7-bit address, then the direction bit, 0 for write and 1 for read (R172, R173). -/
def addressByte (f : Flight) (read : Bool) : Byte := BitVec.ofNat 8 (2 * f.address + (if read then 1 else 0))

/-- Data byte `k` of the captured image: outputs 0..7 first, output j of its group at weight 2^j (R172). -/
def imageByte (f : Flight) (k : Nat) : Byte := f.image.extractLsb' (8 * k) 8

/-- The START step (R172): both lines are released and read, and the START follows only once the clock is not held low and
if the data line does not read low. -/
def startDrive (dataLow : Bool) (r : RelayMaster) : List BusDrive :=
  .released :: if r.clockHeld || dataLow then [] else [.start]

/-- What the master drives in the step the bus stands at, in order; `dataLow` says that the test before a START reads the
data line held low, as in RELAY_START_CONDITION. It acknowledges each byte it reads but the last (R173); a recovery that
gave up releases both lines in place of its STOP (R175). With no transaction in flight both lines are released. The STOP
condition of a transaction that a reset abandoned comes before all of these (R177). -/
def relayDrive (dataLow : Bool) (r : RelayMaster) : List BusDrive :=
  if r.abandoning then [.stop] else
  match r.flight with
  | none => [.released]
  | some f =>
    match r.bus with
    | .idle => [.released]
    | .start => startDrive dataLow r
    | .address => [.byte (addressByte f false)]
    | .writeData => [.byte (imageByte f f.bytes)]
    | .readAddress => [.byte (addressByte f true)]
    | .readData => [.readByte (f.bytes + 1 < partBytes f)]
    | .stop => [if f.recovering && r.lastRecovery = .stuck then .released else .stop]
    | .recover => [.pulse]

/-- The master may complete a bus step: it is in the state given, the clock is not held low (R172, R174), and the STOP of
a transaction that a reset abandoned has been given (R177). -/
def busReady (b : BusState) (s : State) : Bool := s.relay.bus = b && !s.relay.clockHeld && !s.relay.abandoning

end Sys2Proof.Machine
end

