-- ==== Sys2Proof/Machine/DecoderOps.lean ====
section
/-! DEFINITION. The Decoder: profile changes, link channels, the active and the passive matrix decoder (chapter 3). -/

namespace Sys2Proof.Machine

open Sys2Proof

/-! ### The profile -/

/-- The steering state when a profile takes effect: reset if the mode or the matrix pair differs (R44). -/
def steeringOnChange (old new : Profile) (st : Steering) : Steering :=
  if old.mode ≠ new.mode ∨ old.lt ≠ new.lt ∨ old.rt ≠ new.rt then resetSteering else st

/-- A profile takes effect (R40, R44). -/
def putInEffect (d : DecoderRecord) (p : Profile) : DecoderRecord :=
  { profile := p, staged := none, steering := steeringOnChange d.profile p d.steering }

/-- A staged profile, if there is one, takes effect, and its marks in the screen context are cleared (R2, R40). -/
def applyProfile (n : Fin 8) (s : State) : State :=
  let s' := onDecoder n (fun d => match d.staged with
    | some p => putInEffect d p
    | none => d) s
  onScreen n (fun c => { c with profileMark := false, formatMark := false }) s'

/-- A change to a screen's profile (R40): at once on an OFF screen, otherwise to the staged profile, which is first
made as a copy of the profile in effect. `mark` sets the screen context's mark. -/
def changeProfile (n : Fin 8) (f : Profile → Profile) (mark : ScreenContext → ScreenContext) (s : State) : State :=
  if isOff n s then onDecoder n (fun d => putInEffect d (f d.profile)) s
  else onScreen n mark (onDecoder n (fun d => { d with staged := some (f (d.staged.getD d.profile)) }) s)

def markProfile (c : ScreenContext) : ScreenContext := { c with profileMark := true }

def markFormat (c : ScreenContext) : ScreenContext := { c with formatMark := true }

/-- The mode `m` is the mode in effect, and no staged profile brings another. -/
def modeStands (m : DecodeMode) (d : DecoderRecord) : Bool := d.profile.mode = m && (d.staged.getD d.profile).mode = m

/-- A FORMAT cue effect (R43): one that names the mode already in effect changes nothing. DEDUCED (log entry 35): while a
staged profile brings another mode, it sets the mode of the staged profile, as the change taken second. -/
def applyFormat (n : Fin 8) (m : DecodeMode) (s : State) : State :=
  if modeStands m s.decoder[n] then s else changeProfile n (fun p => { p with mode := m }) markFormat s

/-! ### Link channels and backup channels -/

/-- Link channel `c` of a packet (R45). -/
def packetChannel (p : Packet) (c : Nat) : Samples :=
  if c < p.count then (List.range 48).map fun f => p.samples.getD (f * p.count + c) 0 else silence

/-- The sixteen link channels of a period that took packet `p`, or took none (R45). -/
def linkChannels (p : Option Packet) : Vector Samples 16 :=
  match p with
  | some p => Vector.ofFn fun c => packetChannel p c.val
  | none => silentBlock

/-- The left and right samples of the latest backup period, or silence if the backup ring is empty (R20). -/
def backupPair (s : State) : Samples × Samples :=
  match s.engine.backup.getLast? with
  | some b => (b.map Prod.fst, b.map Prod.snd)
  | none => (silence, silence)

/-! ### The matrix decoder -/

/-- Sum of squares over 2^16, floor division (R49). -/
def energy (xs : Samples) : Nat := (xs.foldl (fun a x => a + x.natAbs * x.natAbs) 0) / 2 ^ 16

/-- An envelope moved toward a period energy (R50). -/
def envelope (e energy : Nat) : Nat := e - e / 8 + energy / 8

/-- A steering target: 64 times the difference over the sum, truncated; 0 when the sum is 0 (R51). -/
def steeringTarget (a b : Nat) : Int :=
  if a + b = 0 then 0 else Int.tdiv (64 * ((a : Int) - b)) ((a : Int) + b)

/-- An index slewed toward its target by at most 4 (R52). -/
def slew (index target : Int) : Int := index + saturate (-4) 4 (target - index)

def sums (lt rt : Samples) : Samples := List.zipWith (· + ·) lt rt

def differences (lt rt : Samples) : Samples := List.zipWith (· - ·) lt rt

/-- The steering state after a period's update (R49 to R52). -/
def steer (st : Steering) (lt rt : Samples) : Steering :=
  let el := envelope st.el (energy lt)
  let er := envelope st.er (energy rt)
  let es := envelope st.es (energy (sums lt rt))
  let ed := envelope st.ed (energy (differences lt rt))
  { el := el, er := er, es := es, ed := ed
    lr := slew st.lr (steeringTarget el er)
    fb := slew st.fb (steeringTarget es ed) }

/-- The four steering gains (R53). -/
structure SteeringGains where
  kc : Int
  ks : Int
  kl : Int
  kf : Int
deriving DecidableEq, Repr

/-- The gains for the indices and the depth (R53). -/
def steeringGains (st : Steering) (depth : Nat) : SteeringGains :=
  { kc := Int.fdiv (max 0 st.fb * depth) 4
    ks := Int.fdiv (max 0 (-st.fb) * depth) 4
    kl := Int.fdiv ((st.lr.natAbs : Int) * depth) 8
    kf := Int.fdiv (max 0 st.fb * depth) 8 }

/-- All four gains 0 (R56). -/
def passiveGains : SteeringGains := { kc := 0, ks := 0, kl := 0, kf := 0 }

/-- The decoder's outputs of one frame (R54). -/
def decL (k : SteeringGains) (lt rt : Sample) : Sample :=
  lt - Int.fdiv (k.kc * (lt + rt)) 256 - Int.fdiv (k.ks * (lt - rt)) 256

def decR (k : SteeringGains) (lt rt : Sample) : Sample :=
  rt - Int.fdiv (k.kc * (lt + rt)) 256 + Int.fdiv (k.ks * (lt - rt)) 256

def decC (k : SteeringGains) (lt rt : Sample) : Sample := Int.fdiv ((lt + rt) * (128 - k.kl)) 256

def decS (k : SteeringGains) (lt rt : Sample) : Sample := Int.fdiv ((lt - rt) * (128 - k.kf)) 256

/-- The decoder's output that a DEC selector names, over the period; nothing for the other selectors (R54). -/
def decoded (k : SteeringGains) (lt rt : Samples) (sel : Selector) : Option Samples :=
  match sel with
  | .decL => some (List.zipWith (decL k) lt rt)
  | .decC => some (List.zipWith (decC k) lt rt)
  | .decR => some (List.zipWith (decR k) lt rt)
  | .decS => some (List.zipWith (decS k) lt rt)
  | .silent | .link _ => none

/-- The active decoder runs in this period (R48). -/
def decoderRuns (st : ScreenState) (p : Profile) : Bool := st = .playing && p.mode = .matrix

/-- The source values of one channel by its selector (R46). `inputs`: the link channels; `backup`: the backup
period; `k`: the gains of the period. -/
def sourceValues (st : ScreenState) (p : Profile) (k : SteeringGains) (inputs : Vector Samples 16)
    (backup : Samples × Samples) (sel : Selector) : Samples :=
  match st with
  | .playing =>
    match sel with
    | .link c => inputs[c]
    | .silent => silence
    | _ => if p.mode = .matrix then (decoded k inputs[p.lt] inputs[p.rt] sel).getD silence else silence
  | .fallback => (decoded passiveGains backup.1 backup.2 sel).getD silence
  | .ready | .off => silence

end Sys2Proof.Machine
end

