-- ==== Sys2Proof/Machine/GainOps.lean ====
section
/-! DEFINITION. The Gain stage: fader moves, ramps, mutes (section 4.5). -/

namespace Sys2Proof.Machine

open Sys2Proof

/-- The fader law table's entry for a level (R69, R70). -/
def lawEntry (g : GainStage) (level : Nat) : Nat := g.law[Fin.ofNat 101 level]

/-- A fader move by SET_LEVEL or a FADE cue, with its clamping (R70). -/
def setFader (n : Fin 8) (level length : Nat) (s : State) : State :=
  let level' := min level 100
  let length' := min length Config.maxRamp
  let target := lawEntry s.gain level'
  onLevel n (fun m =>
    if isOff n s || length' = 0 then { m with level := level', gain := target, ramp := none }
    else
      { m with
        level := level'
        ramp := some { start := m.gain, target := target, length := length', done := 0 } }) s

/-- The gain of a ramp after `k` of its periods (R71). -/
def rampGain (r : Ramp) (k : Nat) : Nat :=
  ((r.start : Int) + Int.tdiv (((r.target : Int) - r.start) * k) r.length).toNat

/-- One step of a fader ramp; the ramp is removed when it has run its length (R71). -/
def stepRamp (m : MasterLevel) : MasterLevel :=
  match m.ramp with
  | none => m
  | some r =>
    if r.done + 1 < r.length then { m with gain := rampGain r (r.done + 1), ramp := some { r with done := r.done + 1 } }
    else { m with gain := r.target, ramp := none }

/-- One step of the mute factor toward the mute flag (R72). -/
def stepMute (m : MasterLevel) : MasterLevel :=
  if m.muted then { m with factor := m.factor - 1 }
  else { m with factor := if m.factor < 8 then m.factor + 1 else m.factor }

/-- The mute factor's target: 0 if muted and 8 if not (R9, R72). -/
def muteTarget (muted : Bool) : Nat := if muted then 0 else 8

/-- MUTE, UNMUTE and the cues of those names (R72). -/
def setMute (n : Fin 8) (muted : Bool) (s : State) : State :=
  onLevel n (fun m => { m with muted := muted, factor := if isOff n s then muteTarget muted else m.factor }) s

/-- Entry into OFF: a fader ramp and a mute ramp stop at their targets (R9). -/
def settleLevel (m : MasterLevel) : MasterLevel :=
  { m with
    gain := match m.ramp with
      | some r => r.target
      | none => m.gain
    ramp := none
    factor := muteTarget m.muted }

/-- The steps of the Gain stage at a house period boundary, for a screen in service (R71, R72). -/
def stepGain (n : Fin 8) (s : State) : State :=
  if isOff n s then s else onLevel n (fun m => stepMute (stepRamp m)) s

end Sys2Proof.Machine
end

