-- ==== Sys2Proof/Machine/MeterOps.lean ====
section
/-! DEFINITION. The Meter Unit: the update of a screen's meters and watches, and its reports (chapter 7). -/

namespace Sys2Proof.Machine

open Sys2Proof

/-- The largest magnitude among the samples (R119). -/
def peakOf (xs : Samples) : Nat := xs.foldl (fun a x => max a x.natAbs) 0

/-- The release step of a meter value above 0 (R120). -/
def releaseStep (shift m : Nat) : Nat := max 1 (m / 2 ^ shift)

/-- A meter after an update with period peak `p`; `clip` is the CLIP mark its output channel handed over (R119,
R120, R122). -/
def updateMeter (shift p : Nat) (clip : Bool) (m : Meter) : Meter :=
  { peak := p
    value := if m.value = 0 then p else max p (m.value - releaseStep shift m.value)
    clips := if clip then min (m.clips + 1) 65535 else m.clips }

/-- The mark holds the input watches (R128). -/
def holdsInputs : ContentMark → Bool
  | .packet silent => silent
  | .substitute => true
  | .noLink => true

/-- The watch of meter `i` is tested in a period with this mark: input watches by R128, output watches always. -/
def isTested (mark : ContentMark) (i : Fin 32) : Bool := 16 ≤ i.val || !holdsInputs mark

/-- A tested watch compares its condition with its state (R126, R127). A watch of kind NONE is not tested. -/
def stepWatch (w : Watch) (m : Meter) : Watch :=
  if w.kind = .none then { w with run := 0, raised := false }
  else if watchCondition w m = w.raised then { w with run := 0 }
  else if w.run + 1 = w.hold then { w with run := 0, raised := !w.raised }
  else { w with run := w.run + 1 }

/-- The watch of meter `i` after a period's update. -/
def updateWatch (mark : ContentMark) (i : Fin 32) (w : Watch) (m : Meter) : Watch :=
  if w.kind = .none || isTested mark i then stepWatch w m else w

/-- The alarm kind a watch reports (R129). -/
def watchAlarm (k : WatchKind) : AlarmKind :=
  match k with
  | .over => .over
  | .silence | .none => .silence

/-- A watch's report of a change of state (R129). -/
def watchReport (n : Fin 8) (i : Fin 32) (w : Watch) (raised : Bool) : AlarmReport :=
  { id := { kind := watchAlarm w.kind, scope := .screen n, index := i.val }
    raise := raised, action := w.action, atOff := false }

/-- The period peak of meter `i`: link channels for meters 0..15, output channels for 16..31 (R117). -/
def meterPeak (v : Service) (i : Fin 32) : Nat :=
  if h : i.val < 16 then peakOf v.inputs[(⟨i.val, h⟩ : Fin 16)]
  else peakOf (v.channels[(⟨i.val - 16, by have := i.isLt; omega⟩ : Fin 16)]).output

/-- The CLIP mark handed over for meter `i`; an input meter has none (R116, R122). -/
def meterClip (s : State) (n : Fin 8) (i : Fin 32) : Bool :=
  if i.val < 16 then false
  else (s.engine.channels[n][(⟨i.val - 16, by have := i.isLt; omega⟩ : Fin 16)]).clip

/-- A screen's 32 meters after the update of the period (R118). -/
def metersAfter (v : Service) (s : State) : Vector Meter 32 :=
  mapWith s.meter.meters[v.screen] fun i m => updateMeter s.meter.shift (meterPeak v i) (meterClip s v.screen i) m

/-- A screen's 32 watches after the update, each tested against its meter's new values (R118). -/
def watchesAfter (v : Service) (s : State) : Vector Watch 32 :=
  mapWith s.meter.watches[v.screen] fun i w => updateWatch v.mark i w (metersAfter v s)[i]

/-- The reports of the watches that changed state in the update (R129). -/
def watchReports (v : Service) (s : State) : List AlarmReport :=
  let after := watchesAfter v s
  (List.finRange 32).filterMap fun (i : Fin 32) =>
    let old := (s.meter.watches[v.screen])[i]
    if old.raised = after[i].raised then none else some (watchReport v.screen i old after[i].raised)

/-- The update of the screen's meters and watches at the end of a processed period (R118). -/
def updateMeters (v : Service) (s : State) : State :=
  { s with
    meter := { s.meter with
      meters := update s.meter.meters v.screen fun _ => metersAfter v s
      watches := update s.meter.watches v.screen fun _ => watchesAfter v s }
    mail := { s.mail with alarms := s.mail.alarms ++ watchReports v s } }

/-- One CLIP event for each channel whose CLIP mark is set (R77). -/
def clipEvents (n : Fin 8) (s : State) : State :=
  forEach allChannels (fun c t =>
    if t.engine.channels[n][c].clip then
      sendRaise { kind := .clip, scope := .screen n, index := c.val } t
    else t) s

/-- A watch put into CLEAR with run count 0, its configuration kept (R131). -/
def clearWatch (w : Watch) : Watch := { w with run := 0, raised := false }

def clearWatches (n : Fin 8) (s : State) : State :=
  { s with
    meter := { s.meter with watches := update s.meter.watches n fun ws => mapWith ws fun _ w => clearWatch w } }

/-- The screen's meters set to 0 (R116). -/
def zeroMeters (n : Fin 8) (s : State) : State :=
  { s with meter := { s.meter with meters := update s.meter.meters n fun _ => Vector.replicate 32 resetMeter } }

end Sys2Proof.Machine
end

