-- ==== Sys2Proof/Machine/ScreenOps.lean ====
section
/-! DEFINITION. The Screen Controller: the screen state rule, the cause set, entry into service and into OFF, the end of a
period's accounting (chapter 1). -/

namespace Sys2Proof.Machine

open Sys2Proof

/-! ### The screen state rule (R3, R4) -/

/-- A screen in service must be in FALLBACK (R3). -/
def mustFallBack (c : ScreenContext) : Bool := !c.causes.isEmpty || c.hold

/-- The state of a screen in service and not in FALLBACK (R3). -/
def linkedState (l : LinkState) : ScreenState := if carries l then .playing else .ready

/-- The screen state rule applied to a context, with the auto-return flag of the profile in effect (R3, R4). -/
def applyStateRule (autoReturn : Bool) (c : ScreenContext) : ScreenContext :=
  match c.state with
  | .off => c
  | .fallback => if mustFallBack c then c else { c with state := linkedState c.notedLink }
  | .ready | .playing =>
    if mustFallBack c then { c with state := .fallback, hold := c.hold || !autoReturn }
    else { c with state := linkedState c.notedLink }

/-- Changes a screen context and applies the screen state rule (R3). -/
def changeContext (n : Fin 8) (f : ScreenContext → ScreenContext) (s : State) : State :=
  onScreen n (fun c => applyStateRule s.decoder[n].profile.autoReturn (f c)) s

/-! ### The cause set (R6) -/

/-- The place of an identity of one screen in the order of R12: by kind, then index. -/
def causeKey (id : AlarmId) : Nat := (kindRow id.kind).val * 64 + id.index

/-- Adds an identity to a cause set; one already present changes nothing (R6). -/
def addCause (id : AlarmId) : List AlarmId → List AlarmId
  | [] => [id]
  | x :: xs =>
    if id = x then x :: xs
    else if causeKey id < causeKey x then id :: x :: xs
    else x :: addCause id xs

/-- The Screen Controller takes a cause addition: discarded on an OFF screen, and when its raise was taken before
the screen's latest entry into OFF (R6). -/
def takeAddition (m : CauseMessage) (s : State) : State :=
  if m.stale || isOff m.screen s then s
  else changeContext m.screen (fun c => { c with causes := addCause m.id c.causes }) s

/-- The Screen Controller takes a cause removal (R6). -/
def takeRemoval (m : CauseMessage) (s : State) : State :=
  if isOff m.screen s then s
  else changeContext m.screen (fun c => { c with causes := c.causes.filter (· ≠ m.id) }) s

/-! ### Staged changes (R2, R16) -/

/-- Every staged change of the screen is applied by its owner, and its mark is cleared. -/
def applyStaged (n : Fin 8) (s : State) : State := applyProfile n (applySwap n s)

/-! ### Entry into OFF (R9) -/

/-- The condition identities of a screen (R134). -/
def conditionIds (n : Fin 8) : List AlarmId :=
  (List.range 32).map (fun i => { kind := .silence, scope := .screen n, index := i })
  ++ (List.range 32).map (fun i => { kind := .over, scope := .screen n, index := i })
  ++ [screenAlarm .linkLost n]

/-- The condition stands present, or a raise of it is on its way (R9). -/
def standsPresent (s : State) (id : AlarmId) : Bool :=
  (s.alarm.active.any fun e => e.id = id && e.present) || (s.mail.alarms.any fun r => r.id = id && r.raise)

/-- The absences reported at entry into OFF, behind every raise already sent (R9). -/
def reportAbsences (n : Fin 8) (s : State) : State :=
  let ids := (conditionIds n).filter (standsPresent s)
  { s with
    mail := { s.mail with
      alarms := s.mail.alarms ++ ids.map fun id => { id := id, raise := false, action := .none, atOff := true } } }

/-- Cause additions on their way when the screen enters OFF are discarded on arrival (R6). -/
def markStale (n : Fin 8) (s : State) : State :=
  { s with
    mail := { s.mail with
      causes := s.mail.causes.map fun m => if m.screen = n && m.add then { m with stale := true } else m } }

/-- The newest packet of a queue, alone (R31). -/
def newestOnly (q : List Packet) : List Packet :=
  match q.getLast? with
  | some p => [p]
  | none => []

/-- The context at entry into OFF (R9). -/
def contextOff (c : ScreenContext) : ScreenContext :=
  { c with state := .off, offPending := false, causes := [], hold := false, queue := [], outstanding := 0, owed := 0 }

/-- A screen enters OFF (R9): its staged changes are applied, its delays settle (R66), its ramps stop, its watches
clear (R131), its receiver keeps the newest packet and loses the position (R31, R34), and the absence of its
present conditions is reported. -/
def enterOff (n : Fin 8) (s : State) : State :=
  let s1 := settleDelays n (applyStaged n (onScreen n contextOff s))
  let s2 := clearWatches n (onLevel n settleLevel s1)
  let s3 := onLink n (fun l => { l with queue := newestOnly l.queue, known := false }) s2
  reportAbsences n (markStale n s3)

/-! ### The end of a period (R17) -/

/-- The period's block is discarded: the screen enters OFF if OFF pending is set, and otherwise both counts fall. -/
def discardBlock (n : Fin 8) (s : State) : State :=
  if s.screens[n].offPending then enterOff n s
  else onScreen n (fun c => { c with owed := c.owed - 1, outstanding := c.outstanding - 1 }) s

/-- The block of a period that has ended is placed (R17 step 2). -/
def placeBlock (n : Fin 8) (b : Block) (s : State) : State :=
  if s.screens[n].offPending || 0 < s.screens[n].owed then discardBlock n s
  else onScreen n (fun c => { c with queue := c.queue ++ [b], outstanding := c.outstanding - 1 }) s

/-! ### Entry into service (R7) -/

/-- The context of a screen taken into service (R7 steps 1 and 6). -/
def contextOn (c : ScreenContext) : ScreenContext :=
  { c with
    state := linkedState c.notedLink, queue := [silentBlock, silentBlock], outstanding := 0, owed := 0
    causes := [], hold := false }

/-- A screen is put into service (R7, R34, R59, R116, R131, R151). -/
def enterService (n : Fin 8) (s : State) : State :=
  let s1 := restartRings n (onScreen n contextOn s)
  let s2 := clearWatches n (zeroMeters n s1)
  let s3 := onDecoder n (fun d => { d with steering := resetSteering }) s2
  let s4 := onChannels n (fun _ ch => { ch with histories := Vector.replicate 12 restHistory }) s3
  let s5 := onLink n (fun l => { l with startPending := true }) s4
  { s5 with
    cue := { s5.cue with schedules := update s5.cue.schedules n fun _ => { enable := true, lastEnd := none } } }

end Sys2Proof.Machine
end

