-- ==== Sys2Proof/Machine/CueOps.lean ====
section
/-! DEFINITION. The Cue Scheduler: the pool, hand-offs, advances, releases, cue lines (chapter 9). -/

namespace Sys2Proof.Machine

open Sys2Proof

/-! ### The pool (R149) -/

/-- The cue comes before another in the pool: by screen, position and id (R149). -/
def cueBefore (a b : Cue) : Bool :=
  a.screen < b.screen
  || (a.screen = b.screen && (a.position < b.position || (a.position = b.position && a.id < b.id)))

/-- Puts a cue in its place in the pool. -/
def insertCue (c : Cue) : List Cue → List Cue
  | [] => [c]
  | x :: xs => if cueBefore c x then c :: x :: xs else x :: insertCue c xs

/-- A screen's cue list, in list order (R149). -/
def cueList (n : Fin 8) (s : State) : List Cue := s.cue.pool.filter fun c => c.screen = n

/-- The screen's cue with an id, if it has one. -/
def findCue (n : Fin 8) (id : Nat) (s : State) : Option Cue :=
  s.cue.pool.find? fun c => c.screen = n && c.id = id

def onPool (f : List Cue → List Cue) (s : State) : State := { s with cue := { s.cue with pool := f s.cue.pool } }

def onSchedule (n : Fin 8) (f : Schedule → Schedule) (s : State) : State :=
  { s with cue := { s.cue with schedules := update s.cue.schedules n f } }

/-- Sets the state of a screen's cue. -/
def setCueState (n : Fin 8) (id : Nat) (st : CueState) (s : State) : State :=
  onPool (fun q => q.map fun c => if c.screen = n && c.id = id then { c with state := st } else c) s

/-! ### Cue lines (R165, R166) -/

/-- A line's record after a LINE cue or a DRIVE_LINE (R165). -/
def driven (d : LineDrive) (l : CueLine) : CueLine :=
  match d with
  | .level a => { pulse := false, level := a, remaining := 0 }
  | .pulse length => { l with pulse := true, remaining := length }

def driveCueLine (i : Fin 8) (d : LineDrive) (s : State) : State :=
  { s with cue := { s.cue with lines := update s.cue.lines i (driven d) } }

/-- A pulse whose remaining count has reached 0 is released (R166). -/
def releasePulse (l : CueLine) : CueLine :=
  if l.pulse && l.remaining = 0 then { pulse := false, level := false, remaining := 0 } else l

/-- A line at a house period boundary (R166). -/
def stepLine (l : CueLine) : CueLine :=
  if l.pulse then releasePulse { l with remaining := l.remaining - 1 } else l

/-! ### Hand-offs (R161) -/

/-- A cue's action handed to its owner; the Bool says that it was accepted (R161). -/
def handOff (c : Cue) (s : State) : State × Bool :=
  match c.action with
  | .relay e mask values =>
    if s.relay.expanders[e].present then (relayRequest e mask values s, true) else (s, false)
  | .line i d => (driveCueLine i d s, true)
  | .fade level length => (setFader c.screen level length s, true)
  | .mute => (setMute c.screen true s, true)
  | .unmute => (setMute c.screen false s, true)
  | .format m => (applyFormat c.screen m s, true)
  | .eqSelect k => if eqBlocked c.screen k s then (s, false) else (acceptEqSelect c.screen k c.id s, true)
  | .mark => (sendRaise (screenAlarm .cueMark c.screen) s, true)

/-- A cue fires: its action is handed over, and it becomes FIRED or FAILED (R161, R162). -/
def fireCue (c : Cue) (s : State) : State :=
  let (s1, accepted) := handOff c s
  if accepted then setCueState c.screen c.id .fired s1
  else sendRaise (screenAlarm .cueBlocked c.screen) (setCueState c.screen c.id .failed s1)

/-- A cue is taken: it fires, or becomes HELD while its screen's cue enable is clear (R155). -/
def takeCue (c : Cue) (s : State) : State :=
  if s.cue.schedules[c.screen].enable then fireCue c s
  else setCueState c.screen c.id (.held s.system.housePeriods) s

/-- A cue that a START or a forward jump passes: taken with catch-up set, SKIPPED otherwise (R157, R158). -/
def passCue (c : Cue) (s : State) : State :=
  if c.catchUp then takeCue c s else setCueState c.screen c.id .skipped s

/-! ### Advances (R156 to R159) -/

/-- The window of a JUMP_FORWARD: from the last position end up to the first position (R158). The end is present, since
every advance other than START finds it so (R156); in a state that no run reaches, where it is absent, no position is
passed (log entry 10). -/
def jumpWindow (lastEnd : Option Word) (p x : Word) : Bool :=
  match lastEnd with
  | some e => e ≤ x && x < p
  | none => false

/-- A cue after a JUMP_BACKWARD to `p` (R159). -/
def rearm (n : Fin 8) (p : Word) (c : Cue) : Cue :=
  if c.screen = n && p ≤ c.position then { c with state := .armed } else c

/-- The kind step of an advance (R157, R158, R159). -/
def kindStep (a : Advance) (s : State) : State :=
  match a.kind with
  | .contiguous => s
  | .start =>
    forEach ((cueList a.screen s).filter fun c => c.state = .armed && c.position < a.first) passCue s
  | .jumpForward =>
    forEach ((cueList a.screen s).filter fun c =>
      c.state = .armed && jumpWindow s.cue.schedules[a.screen].lastEnd a.first c.position) passCue s
  | .jumpBackward => onPool (fun q => q.map (rearm a.screen a.first)) s

/-- The range step of an advance: the ARMED cues in the 48 positions are taken in list order (R156). -/
def rangeStep (a : Advance) (s : State) : State :=
  forEach ((cueList a.screen s).filter fun c => c.state = .armed && (c.position - a.first) < 48#32) takeCue s

/-- The Cue Scheduler takes an advance whole (R156). -/
def takeAdvance (a : Advance) (s : State) : State :=
  onSchedule a.screen (fun r => { r with lastEnd := some (a.first + 48) }) (rangeStep a (kindStep a s))

/-! ### Advances on their way (R156, R162)

The cue events of a screen reach the Alarm Handler, and the holds they bring the Cue Scheduler, before the screen's next
advance (R162). SCREEN_ON, which clears the last position end, comes after every advance of the screen already sent, since
only a START may find the end absent (R156). -/

/-- The report raises one of the Cue Scheduler's events for screen `n` (R162). -/
def isCueEvent (n : Fin 8) (r : AlarmReport) : Bool := r.raise && isCueKind r.id.kind && r.id.scope = .screen n

/-- The hold is one that a cue event of screen `n` has sent (R139, R162). -/
def isCueHoldOf (n : Fin 8) (h : HoldMessage) : Bool := h.screen = n && h.ofCue

/-- A cue event of the screen, or a hold that one has sent, is on its way (R139, R162). What action an event brings is
known only once its raise is taken (R135, R138), so every one of them counts. -/
def eventsComing (n : Fin 8) (s : State) : Bool :=
  s.mail.alarms.any (isCueEvent n) || s.mail.holds.any (isCueHoldOf n)

/-- The holds that cue events of the screen have sent reach the Cue Scheduler: any of them clears the enable (R139). -/
def bringHolds (n : Fin 8) (s : State) : State :=
  let s1 := { s with mail := { s.mail with holds := s.mail.holds.filter fun h => !isCueHoldOf n h } }
  if s.mail.holds.any (isCueHoldOf n) then onSchedule n (fun r => { r with enable := false }) s1 else s1

/-- The screen's cue events reach the Alarm Handler in their order, and the holds they bring the Cue Scheduler (R138,
R139, R162). -/
def bringEvents (n : Fin 8) (s : State) : State :=
  bringHolds n (forEach (s.mail.alarms.filter (isCueEvent n)) takeRaise
    { s with mail := { s.mail with alarms := s.mail.alarms.filter fun r => !isCueEvent n r } })

/-- An advance that has been sent is taken, behind the events that must come first. -/
def takeSent (a : Advance) (s : State) : State := takeAdvance a (bringEvents a.screen s)

/-- Every advance of the screen on its way is taken, in the order of the screen's takes (R156). -/
def takeSentAdvances (n : Fin 8) (s : State) : State :=
  forEach (s.mail.advances.filter fun a => a.screen = n) takeSent
    { s with mail := { s.mail with advances := s.mail.advances.filter fun a => a.screen ≠ n } }

/-! ### Releases (R160) -/

/-- What becomes of a HELD cue at its release (R160). -/
def releaseCue (c : Cue) (s : State) : State :=
  match c.state with
  | .held since =>
    if c.lateLimit = 0 ∨ (s.system.housePeriods - since).toNat ≤ c.lateLimit then fireCue c s
    else sendRaise (screenAlarm .cueLate c.screen) (setCueState c.screen c.id .late s)
  | _ => s

def isHeld (c : Cue) : Bool :=
  match c.state with
  | .held _ => true
  | _ => false

/-- The screen's HELD cues, in list order. -/
def heldCues (n : Fin 8) (s : State) : List Cue := (cueList n s).filter isHeld

/-- CUE_ENABLE set: the enable is set, then every HELD cue of the screen is released in list order (R160). -/
def enableCues (n : Fin 8) (s : State) : State :=
  let s1 := onSchedule n (fun r => { r with enable := true }) s
  forEach (heldCues n s1) releaseCue s1

/-- How many of the cues given are in a state (R160). -/
def countIn (n : Fin 8) (cs : List Cue) (st : CueState) (s : State) : Nat :=
  (cs.filter fun c => (findCue n c.id s).any fun x => x.state = st).length

/-! ### Load outcomes (R163) -/

/-- The Cue Scheduler takes a load outcome report (R163). -/
def takeOutcome (o : LoadOutcome) (s : State) : State :=
  match findCue o.screen o.cue s with
  | some c =>
    match c.action, c.state with
    | .eqSelect _, .fired =>
      sendRaise (screenAlarm .cueBlocked o.screen) (setCueState o.screen o.cue .failed s)
    | _, _ => s
  | none => s

end Sys2Proof.Machine
end

