-- ==== Sys2Proof/Machine/LinkOps.lean ====
section
/-! DEFINITION. The Link Receivers: packets, link states, takes and show position (chapter 2). -/

namespace Sys2Proof.Machine

open Sys2Proof

/-! ### Packets (R22, R23, R188) -/

/-- Bytes, most significant first, as a number (R180, R188). -/
def bigEndian (bs : List Byte) : Nat := bs.foldl (fun a b => a * 256 + b.toNat) 0

/-- One bit of the CRC with polynomial x^16 + x^12 + x^5 + 1, no reflection (R23). -/
def crcBit (c : BitVec 16) (b : Bool) : BitVec 16 :=
  if c.msb ≠ b then (c <<< 1) ^^^ 0x1021#16 else c <<< 1

/-- One byte of the CRC, most significant bit first (R23). -/
def crcByte (c : BitVec 16) (b : Byte) : BitVec 16 :=
  crcBit (crcBit (crcBit (crcBit (crcBit (crcBit (crcBit (crcBit c (b.getLsbD 7)) (b.getLsbD 6)) (b.getLsbD 5))
    (b.getLsbD 4)) (b.getLsbD 3)) (b.getLsbD 2)) (b.getLsbD 1)) (b.getLsbD 0)

/-- The check value of a packet's bytes: initial value FFFFh, no final exclusive-OR (R23). -/
def crc16 (bs : List Byte) : BitVec 16 := bs.foldl crcByte 0xFFFF#16

/-- The samples of a packet, three bytes each, signed (R188). -/
def packetSamples : List Byte → Samples
  | a :: b :: c :: rest => (a ++ b ++ c : BitVec 24).toInt :: packetSamples rest
  | _ => []

/-- The channel count of the packet whose first bytes are these (R188). -/
def channelCount (fields : Vector Byte 6) : Nat := fields[5].toNat

/-- How many bytes of a packet follow its channel count: content flags, 144 for each channel, check value (R188). -/
def remainingLength (fields : Vector Byte 6) : Nat := 1 + 144 * channelCount fields + 2

/-- The bytes the check value covers: from the screen tag through the last sample (R23). -/
def coveredBytes (fields : Vector Byte 6) (rest : List Byte) : List Byte :=
  fields.toList ++ rest.take (rest.length - 2)

/-- The check value the packet carries (R188). -/
def carriedCheck (rest : List Byte) : Nat := bigEndian (rest.drop (rest.length - 2))

/-- The packet that arrived bytes hold (R188). -/
def readPacket (fields : Vector Byte 6) (rest : List Byte) : Packet :=
  { position := fields[1] ++ fields[2] ++ fields[3] ++ fields[4]
    count := channelCount fields
    silent := (rest.headD 0).getLsbD 0
    samples := packetSamples ((rest.drop 1).take (144 * channelCount fields)) }

/-! ### Link states -/

/-- The link changes state, and the change is reported to the Screen Controller (section 2.3). -/
def moveLink (n : Fin 8) (st : LinkState) (f : LinkRecord → LinkRecord) (s : State) : State :=
  reportLink n st (onLink n (fun l => { f l with state := st }) s)

/-- The link enters DOWN (R24). -/
def linkDown (n : Fin 8) (s : State) : State :=
  moveLink n .down (fun l => { l with queue := [], acquisition := 0, missed := 0, known := false }) s

/-- A link in holdover is lost (R29). -/
def loseLink (n : Fin 8) (s : State) : State :=
  sendRaise (screenAlarm .linkLost n) (onLink n (fun l => { l with lossReported := true }) (linkDown n s))

/-- The link enters LOCKED from ACQUIRING with the packet that completed the run (R25, R32). -/
def lockLink (n : Fin 8) (p : Packet) (s : State) : State :=
  let s1 := moveLink n .locked (fun l =>
    { l with queue := [p], acquisition := Config.lockCount, startPending := true, lossReported := false }) s
  if s.links[n].lossReported then sendAbsence (screenAlarm .linkLost n) s1 else s1

/-- A good packet in ACQUIRING, against the expected position as it stood before it (R25). -/
def acquire (n : Fin 8) (p : Packet) (expected : Word) (s : State) : State :=
  if p.position = expected then
    if s.links[n].acquisition + 1 = Config.lockCount then lockLink n p s
    else onLink n (fun l => { l with acquisition := l.acquisition + 1 }) s
  else onLink n (fun l => { l with acquisition := 1 }) s

/-- A good packet in LOCKED (R27), and on an OFF screen (R31). -/
def enqueue (n : Fin 8) (p : Packet) (s : State) : State :=
  if isOff n s then onLink n (fun l => { l with queue := [p] }) s
  else if Config.inputQueueDepth ≤ s.links[n].queue.length then sendRaise (screenAlarm .linkOverrun n) s
  else onLink n (fun l => { l with queue := l.queue ++ [p] }) s

/-- A good packet: the expected position and the quiet count, then the rule of the link state (R23). -/
def goodPacket (n : Fin 8) (p : Packet) (s : State) : State :=
  let s1 := onLink n (fun l => { l with expected := p.position + 48, quiet := 0 }) s
  match s.links[n].state with
  | .down => moveLink n .acquiring (fun l => { l with acquisition := 1 }) s1
  | .acquiring => acquire n p s.links[n].expected s1
  | .locked => enqueue n p s1
  | .holdover => moveLink n .locked (fun l => { l with missed := 0, queue := l.queue ++ [p] }) s1

/-- A packet has arrived: check value, screen tag, then the rule of the link state (R23). The receiver then
searches for the next sync word (R22). -/
def arrive (n : Fin 8) (fields : Vector Byte 6) (rest : List Byte) (s : State) : State :=
  let s1 := onLink n (fun l => { l with reading := none }) s
  if (crc16 (coveredBytes fields rest)).toNat ≠ carriedCheck rest then s1
  else if fields[0].toNat ≠ s.decoder[n].profile.tag then
    if isOff n s then s1 else sendRaise (screenAlarm .linkMismatch n) s1
  else goodPacket n (readPacket fields rest) s1

/-! ### The quiet count (R26, R31) -/

/-- The quiet count rises by 1, stopping at 100. -/
def raiseQuiet (n : Fin 8) (s : State) : State :=
  onLink n (fun l => { l with quiet := min (l.quiet + 1) Config.quietLimit }) s

/-- An acquisition that has timed out: ACQUIRING with the quiet count at 100 (R26). -/
def acquisitionDue (n : Fin 8) (s : State) : Bool :=
  s.links[n].state = .acquiring && s.links[n].quiet = Config.quietLimit

/-- A quiet timeout of an OFF screen: LOCKED or HOLDOVER with the quiet count at 100 (R31). -/
def offQuietDue (n : Fin 8) (s : State) : Bool :=
  isOff n s && carries s.links[n].state && s.links[n].quiet = Config.quietLimit

/-- The quiet count at a house period boundary, with the timeout it brings about. -/
def stepQuiet (n : Fin 8) (s : State) : State :=
  let s1 := raiseQuiet n s
  if acquisitionDue n s1 || offQuietDue n s1 then linkDown n s1 else s1

/-! ### Takes and show position (R28, R29, R33, R35) -/

/-- The advance kind of a range that starts at `p` (R35). -/
def advanceKind (l : LinkRecord) (p : Word) : AdvanceKind :=
  if l.startPending then .start
  else if p = l.lastPosition + 48 then .contiguous
  else if l.lastPosition + 48 < p then .jumpForward
  else .jumpBackward

/-- A take hands out the range that starts at `p` (R34, R35, R36). -/
def handOut (n : Fin 8) (p : Word) (s : State) : State :=
  sendAdvance { screen := n, first := p, kind := advanceKind s.links[n] p }
    (onLink n (fun l => { l with lastPosition := p, startPending := false, known := true }) s)

/-- What a take hands the period: its mark and its packet, if one was taken (R37). -/
structure Content where
  mark   : ContentMark
  packet : Option Packet
deriving DecidableEq, Repr

def noContent : Content := { mark := .noLink, packet := none }

/-- A period of the screen takes from its receiver (R28, R29, R33). -/
def takeInput (n : Fin 8) (s : State) : State × Content :=
  let l := s.links[n]
  let next := l.lastPosition + 48
  match l.state with
  | .locked =>
    match l.queue with
    | p :: rest =>
      (handOut n p.position
        (onLink n (fun l => { l with queue := rest, takenCount := p.count, takenSilent := p.silent }) s),
        { mark := .packet p.silent, packet := some p })
    | [] =>
      (handOut n next (moveLink n .holdover (fun l => { l with missed := 1 }) s),
        { mark := .substitute, packet := none })
  | .holdover =>
    let s1 := handOut n next (onLink n (fun l => { l with missed := l.missed + 1 }) s)
    (if Config.missLimit ≤ l.missed + 1 then loseLink n s1 else s1, { mark := .substitute, packet := none })
  | .down | .acquiring => (s, noContent)

end Sys2Proof.Machine
end

