-- ==== Sys2Proof/Machine/PeriodOps.lean ====
section
/-! DEFINITION. The period arbiter, the start and the end of a period, skipped and overflow periods, and the output port's
demand (sections 1.4 to 1.6). -/

namespace Sys2Proof.Machine

open Sys2Proof

/-- A screen waits for the engine: its outstanding count is above 0 and none of its periods is in service (R15). -/
def waiting (s : State) (n : Fin 8) : Bool :=
  !isOff n s && 0 < s.screens[n].outstanding && !inService n s

/-- The screens in rotating order after the one served last (R15). -/
def rotation (last : Fin 8) : List (Fin 8) := (List.range 8).map fun k => last + 1 + Fin.ofNat 8 k

/-- The screen the arbiter takes next (R15). -/
def nextScreen (s : State) : Option (Fin 8) := (rotation s.engine.lastServed).find? (waiting s)

/-- A period in this state takes from the link (R16 step 4). -/
def takesFromLink (c : ScreenContext) : Bool :=
  c.state = .playing || (c.state = .fallback && carries c.notedLink)

/-- The input of a period that starts: a take, or nothing (R16 step 4). -/
def periodInput (n : Fin 8) (s : State) : State × Content :=
  if takesFromLink s.screens[n] then takeInput n s else (s, noContent)

/-- What a skipped period does before it ends: it takes its input, and its rings restart (R18). -/
def skipBody (n : Fin 8) (s : State) : State := restartRings n (periodInput n s).1

/-- A skipped period granted by the arbiter; it ends at once (R17, R18). -/
def skipPeriod (n : Fin 8) (s : State) : State := placeBlock n silentBlock (skipBody n s)

/-- The channel states of a screen after the settling of their delays at a processed period's start, with the CLIP
marks cleared (R59, R64). -/
def startChannel (s : State) (n : Fin 8) (c : Fin 16) (ch : ChannelState) : ChannelState :=
  { (settleDelay (s.bank.banks[n][c]).delay ch).2.2 with clip := false }

/-- A channel's work at a processed period's start (R64). -/
def startWork (s : State) (n : Fin 8) (c : Fin 16) : ChannelWork :=
  let settled := settleDelay (s.bank.banks[n][c]).delay s.engine.channels[n][c]
  { readDelay := settled.1, fade := settled.2.1, stage := .sections, post := [], output := [] }

/-- The steering state after a processed period's start (R48). -/
def startSteering (st : ScreenState) (inputs : Vector Samples 16) (d : DecoderRecord) : Steering :=
  if decoderRuns st d.profile then steer d.steering inputs[d.profile.lt] inputs[d.profile.rt] else d.steering

/-- The record of a processed period at its start (R16, R45, R46, R48, R64, R73): `s` is the state after the
staged changes and the take. -/
def serviceAt (n : Fin 8) (content : Content) (s : State) : Service :=
  let st := s.screens[n].state
  let d := s.decoder[n]
  let inputs := linkChannels content.packet
  let gains := steeringGains (startSteering st inputs d) d.profile.depth
  let backup := backupPair s
  { screen := n
    state := st
    mark := content.mark
    inputs := inputs
    sources := mapWith d.profile.table fun _ sel => sourceValues st d.profile gains inputs backup sel
    gain := s.gain.levels[n].gain
    factor := s.gain.levels[n].factor
    channels := Vector.ofFn (startWork s n) }

/-- A processed period starts (R16). -/
def startProcessed (n : Fin 8) (s : State) : State :=
  let (s1, content) := periodInput n s
  let v := serviceAt n content s1
  let s2 := onDecoder n (fun d => { d with steering := startSteering v.state v.inputs d }) s1
  let s3 := onChannels n (startChannel s1 n) s2
  { s3 with engine := { s3.engine with service := some v } }

/-- The arbiter grants the engine to screen `n`: staged changes, class, then the period (R15, R16). -/
def grantPeriod (n : Fin 8) (s : State) : State :=
  let s1 := applyStaged n { s with engine := { s.engine with lastServed := n } }
  if 0 < s1.screens[n].owed then skipPeriod n s1 else startProcessed n s1

/-- The period in service has come to its end: every channel is done (R17, R114). -/
def periodDone (v : Service) : Bool := allChannels.all fun c => v.channels[c].stage = .done

/-- The block of a processed period (R2, R76). -/
def blockOf (v : Service) : Block := mapWith v.channels fun _ w => w.output

def freeEngine (s : State) : State := { s with engine := { s.engine with service := none } }

/-- A processed period ends (R17, R77, R118). -/
def endPeriod (v : Service) (s : State) : State :=
  placeBlock v.screen (blockOf v) (freeEngine (clipEvents v.screen (updateMeters v s)))

/-! ### The overflow rule (R19) -/

/-- The period in service of screen `n` is cut short (R19, R113). -/
def cutShort (n : Fin 8) (s : State) : State :=
  discardBlock n (restartRings n (withdrawTransfers (freeEngine s)))

/-- One period of the screen is ended at once: cut short if one is in service, and otherwise taken as a skipped
period outside the rotation, its staged changes applied at its start (R19). -/
def overflow (n : Fin 8) (s : State) : State :=
  if inService n s then cutShort n s else discardBlock n (skipBody n (applyStaged n s))

/-- The demand of a screen's output port on its context (R13). -/
def demandContext (c : ScreenContext) : ScreenContext :=
  match c.queue with
  | b :: rest => { c with queue := rest, sending := b, outstanding := c.outstanding + 1 }
  | [] => { c with sending := silentBlock, outstanding := c.outstanding + 1, owed := c.owed + 1 }

/-- The output port of screen `n` at a house period boundary (R13, R19). -/
def demand (n : Fin 8) (s : State) : State :=
  if isOff n s then onScreen n (fun c => { c with sending := silentBlock }) s
  else
    let s1 := onScreen n demandContext s
    let s2 := if s.screens[n].queue.isEmpty then sendRaise (screenAlarm .engineLate n) s1 else s1
    if Config.overflowCount ≤ s2.screens[n].outstanding then overflow n s2 else s2

end Sys2Proof.Machine
end

