-- ==== Sys2Proof/Machine/House.lean ====
section
/-! DEFINITION. The house period boundary with all it drives, the timeouts it brings about, and the end of a hold of the
relay clock (R1, R13, R20, R26, R31, R71, R72, R82, R100, R166, R174). -/

namespace Sys2Proof.Machine

open Sys2Proof

/-- The house period count rises by 1 (R1). -/
def countPeriod (s : State) : State :=
  { s with system := { s.system with housePeriods := s.system.housePeriods + 1 } }

/-- The backup period of 48 frames as signed samples (R20). -/
def backupOf (frames : Vector (PinSample × PinSample) 48) : BackupPeriod :=
  frames.toList.map fun f => (f.1.toInt, f.2.toInt)

/-- The backup ring with a completed period; when it holds 16, the oldest is removed first (R20). -/
def joinBackup (b : BackupPeriod) (ring : List BackupPeriod) : List BackupPeriod :=
  (if Config.backupDepth ≤ ring.length then ring.tail else ring) ++ [b]

def completeBackup (frames : Vector (PinSample × PinSample) 48) (s : State) : State :=
  { s with engine := { s.engine with backup := joinBackup (backupOf frames) s.engine.backup } }

/-- Every cue line at a house period boundary (R166). -/
def stepLines (s : State) : State :=
  { s with cue := { s.cue with lines := mapWith s.cue.lines fun _ l => stepLine l } }

/-- The WAIT step of the initialisation sequence completes (R100). -/
def endWait (s : State) : State :=
  if s.memory.bus = .init && s.memory.step = .wait then
    { s with memory := { s.memory with step := .precharge } }
  else s

/-- A draft that has expired: held by a port, LOADING or EDITABLE, its last touch 30,000 house periods past (R82). -/
def expired (count : Word) (d : Draft) : Bool :=
  match d.holder with
  | .port _ touch => d.state ≠ .committing && Config.draftLife ≤ (count - touch).toNat
  | .cue _ => false

def draftExpired (n : Fin 8) (s : State) : Bool := s.bank.drafts[n].any (expired s.system.housePeriods)

/-- An expired draft is removed as by ABANDON, and DRAFT_EXPIRED is raised (R82). -/
def expireDraft (n : Fin 8) (s : State) : State :=
  if draftExpired n s then sendRaise (screenAlarm .draftExpired n) (removeDraft n s) else s

/-- All that a house period boundary drives, in the order of file 95 (log entry 6). -/
def houseBoundary (frames : Vector (PinSample × PinSample) 48) (clockLow : Bool) (s : State) : State :=
  let s1 := forEach allScreens demand (countPeriod s)
  let s2 := forEach allScreens stepQuiet (completeBackup frames s1)
  let s3 := stepLines (forEach allScreens stepGain s2)
  forEach allScreens expireDraft (endWait (stepStretch clockLow s3))

/-- HOUSE_PERIOD_BOUNDARY (R1). While the reset line is held low the count stays 0 (R186). -/
def execHousePeriodBoundary (frames : Vector (PinSample × PinSample) 48) (clockLow : Bool) (s : State) :
    Host.Outcome State Fault Refusal :=
  whenRunning s (houseBoundary frames clockLow s)

/-! ### The timeouts (log entry 5) -/

/-- ACQUISITION_TIMEOUT (R26). -/
def execAcquisitionTimeout (n : Fin 8) (s : State) : Host.Outcome State Fault Refusal :=
  whenRunning s (if acquisitionDue n s then linkDown n s else s)

/-- OFF_QUIET_TIMEOUT (R31). -/
def execOffQuietTimeout (n : Fin 8) (s : State) : Host.Outcome State Fault Refusal :=
  whenRunning s (if offQuietDue n s then linkDown n s else s)

/-- DRAFT_EXPIRY (R82). -/
def execDraftExpiry (n : Fin 8) (s : State) : Host.Outcome State Fault Refusal :=
  whenRunning s (expireDraft n s)

/-- PULSE_RELEASE (R166). -/
def execPulseRelease (line : Fin 8) (s : State) : Host.Outcome State Fault Refusal :=
  whenRunning s { s with cue := { s.cue with lines := update s.cue.lines line releasePulse } }

/-- STRETCH_TIMEOUT (R174). -/
def execStretchTimeout (s : State) : Host.Outcome State Fault Refusal :=
  whenRunning s (if stretchDue s.relay then stretchOut s else s)

/-- CLOCK_HOLD_END (R174): the master goes on with its step, and the stretch count stays where it reached. -/
def execClockHoldEnd (s : State) : Host.Outcome State Fault Refusal :=
  whenRunning s (onRelay (fun r => { r with clockHeld := false }) s)

end Sys2Proof.Machine
end

