-- ==== Sys2Proof/Machine/LinkEvents.lean ====
section
/-! DEFINITION. The events of the screen links: a sync word, a packet, a report of a link state, the loss of a link (R5, R22,
R23, R29). -/

namespace Sys2Proof.Machine

open Sys2Proof

/-- A channel count from which a length can be taken (R22). -/
def countGood (fields : Vector Byte 6) : Bool := 1 ≤ channelCount fields && channelCount fields ≤ 16

/-- The fields that follow a sync word, screen tag to channel count, once all six bytes are there (R188). -/
def headerOf : List Byte → Option (Vector Byte 6)
  | t :: a :: b :: c :: d :: n :: _ => some #v[t, a, b, c, d, n]
  | _ => none

/-- The search of a stream for a packet (R22): the fields of the first packet whose channel count gives a length, with
the bytes that follow them; or nothing, with the bytes not passed over yet: a sync word whose fields are still to
come, or a last byte that may be the first of one. After any other channel count the search resumes at the byte
after the sync word. -/
def searchStream : List Byte → Option (Vector Byte 6) × List Byte
  | [] => (none, [])
  | [x] => (none, if x = Config.syncWord.1 then [x] else [])
  | x :: y :: rest =>
    if x = Config.syncWord.1 ∧ y = Config.syncWord.2 then
      match headerOf rest with
      | some fields => if countGood fields then (some fields, rest.drop 6) else searchStream rest
      | none => (none, x :: y :: rest)
    else searchStream (y :: rest)

/-- The receiver after the bytes the stream has brought it (R22): reading the packet that ends them with its channel
count, or searching on. Bytes beyond a channel count belong to the packet and are PACKET_ARRIVAL's (log entry 4). -/
def searched (bytes : List Byte) (l : LinkRecord) : LinkRecord :=
  match searchStream (l.search ++ bytes) with
  | (some fields, []) => { l with reading := some fields, search := [] }
  | (some _, _ :: _) => l
  | (none, left) => { l with search := left }

/-- SYNC_WORD_FOUND (R22). A receiver that is reading a packet takes the bytes as its remaining bytes. -/
def execSyncWordFound (n : Fin 8) (bytes : List Byte) (s : State) : Host.Outcome State Fault Refusal :=
  whenRunning s (onLink n (fun l => if l.reading.isSome then l else searched bytes l) s)

/-- PACKET_ARRIVAL (R23): the last check-value byte of the packet being read has been received. -/
def execPacketArrival (n : Fin 8) (rest : List Byte) (s : State) : Host.Outcome State Fault Refusal :=
  whenRunning s (match s.links[n].reading with
    | some fields => if rest.length = remainingLength fields then arrive n fields rest s else s
    | none => s)

/-- LINK_STATE_REPORT (R5): the Screen Controller takes the oldest report of screen `n`'s link. -/
def execLinkStateReport (n : Fin 8) (s : State) : Host.Outcome State Fault Refusal :=
  whenRunning s (match takeFirst (fun r => r.1 = n) s.mail.links with
    | some (r, rest) =>
      changeContext n (fun c => { c with notedLink := r.2 }) { s with mail := { s.mail with links := rest } }
    | none => s)

/-- A link in holdover has missed 32 takes (R29). -/
def lossDue (n : Fin 8) (s : State) : Bool :=
  s.links[n].state = .holdover && Config.missLimit ≤ s.links[n].missed

/-- LINK_LOSS (R29, log entry 5). -/
def execLinkLoss (n : Fin 8) (s : State) : Host.Outcome State Fault Refusal :=
  whenRunning s (if lossDue n s then loseLink n s else s)

end Sys2Proof.Machine
end

