-- ==== Sys2Proof/Machine/MemoryBus.lean ====
section
/-! DEFINITION. The events on the memory bus and the start of a library entry (R89, R100, R103 to R107, R110). -/

namespace Sys2Proof.Machine

open Sys2Proof

/-- The initialisation step of the sequence on the bus (R99, R100). -/
def initAt (st : InitStep) (s : State) : Bool := s.memory.bus = .init && s.memory.step = st

def setStep (st : InitStep) (s : State) : State := { s with memory := { s.memory with step := st } }

/-- PRECHARGE_DONE (R100). -/
def execPrechargeDone (s : State) : Host.Outcome State Fault Refusal :=
  whenRunning s (if initAt .precharge s then setStep (.refresh 1) s else s)

/-- The step after initialisation refresh `k` (R100). -/
def afterRefresh (k : Nat) : InitStep := if k < 8 then .refresh (k + 1) else .modeSet

/-- INIT_REFRESH_DONE (R100). -/
def execInitRefreshDone (s : State) : Host.Outcome State Fault Refusal :=
  whenRunning s (match s.memory.bus, s.memory.step with
    | .init, .refresh k => setStep (afterRefresh k) s
    | _, _ => s)

/-- The completion of the initialisation sequence (R100). -/
def memoryReady (s : State) : State :=
  { s with
    memory := { s.memory with state := .ready, step := .done, pending := 0, timerRunning := true, bus := .none } }

/-- MODE_SET_DONE (R100). -/
def execModeSetDone (s : State) : Host.Outcome State Fault Refusal :=
  whenRunning s (if initAt .modeSet s then memoryReady s else s)

/-- The pending refresh count after an expiry, within 0..8 (R103). -/
def raisePending (m : MemoryController) : MemoryController :=
  { m with pending := min (m.pending + 1) Config.forcedRefreshAt }

/-- REFRESH_INTERVAL_EXPIRY (R103). The timer runs while the state is READY (R101). -/
def execRefreshIntervalExpiry (s : State) : Host.Outcome State Fault Refusal :=
  whenRunning s (if s.memory.timerRunning then { s with memory := raisePending s.memory } else s)

/-- MEMORY_BUS_GRANT (R105). -/
def execMemoryBusGrant (s : State) : Host.Outcome State Fault Refusal := whenRunning s (grantBus s)

/-- REFRESH_COMPLETE (R104): the bus is free, and the pending count falls by 1. -/
def execRefreshComplete (s : State) : Host.Outcome State Fault Refusal :=
  whenRunning s (if s.memory.bus = .refresh then
    { s with memory := { s.memory with bus := .none, pending := s.memory.pending - 1 } }
  else s)

/-- RING_TRANSFER_COMPLETE (R110, R111). -/
def execRingTransferComplete (s : State) : Host.Outcome State Fault Refusal :=
  whenRunning s (match s.memory.bus with
    | .ring t live => completeTransfer t live s
    | _ => s)

/-- LIBRARY_BURST_COMPLETE (R107). -/
def execLibraryBurstComplete (requestFirst : Bool) (s : State) : Host.Outcome State Fault Refusal :=
  whenRunning s (match s.memory.bus with
    | .burst b words live => completeBurst b words live requestFirst s
    | _ => s)

/-- LIBRARY_ENTRY_START (R89). -/
def execLibraryEntryStart (s : State) : Host.Outcome State Fault Refusal := whenRunning s (startEntry s)

end Sys2Proof.Machine
end

