-- ==== Sys2Proof/Machine/PeriodEvents.lean ====
section
/-! DEFINITION. The events of the Processing Engine: the grant of a period, the end of a channel's section stage, the end of
a period (R15, R16, R17, R109). -/

namespace Sys2Proof.Machine

open Sys2Proof

/-- PERIOD_START (R15, R16): the free engine goes to the next waiting screen. -/
def execPeriodStart (s : State) : Host.Outcome State Fault Refusal :=
  whenRunning s (match s.engine.service, nextScreen s with
    | none, some n => grantPeriod n s
    | _, _ => s)

/-- SECTION_STAGE_COMPLETE (R109): channel `c` of the period in service. -/
def execSectionStageComplete (c : Fin 16) (s : State) : Host.Outcome State Fault Refusal :=
  whenRunning s (match s.engine.service with
    | some v => if v.channels[c].stage = .sections then finishSections v c s else s
    | none => s)

/-- PERIOD_END (R17): the last channel of the period in service is complete. -/
def execPeriodEnd (s : State) : Host.Outcome State Fault Refusal :=
  whenRunning s (match s.engine.service with
    | some v => if periodDone v then endPeriod v s else s
    | none => s)

end Sys2Proof.Machine
end

