-- ==== Sys2Proof/Machine/Operands.lean ====
section
/-! DEFINITION. Arguments and data of requests: the codes of R190 and R191 read, and the fields of R192 written. -/

namespace Sys2Proof.Machine

open Sys2Proof

/-- The outcome an owner returns for a request (R183 step 4). -/
structure Reply where
  status  : Status
  clamped : Bool
  data    : List Byte
deriving DecidableEq, Repr

/-- A refusal carries no data (R184). -/
def refusal (st : Status) : Reply := { status := st, clamped := false, data := [] }

/-- An answer with data and no CLAMPED. -/
def answer (st : Status) (data : List Byte) : Reply := { status := st, clamped := false, data := data }

/-- An answer OK or ACCEPTED that carries CLAMPED if `clamped`. -/
def answerClamped (st : Status) (clamped : Bool) : Reply := { status := st, clamped := clamped, data := [] }

/-- A request refused with nothing changed. -/
def refuse (st : Status) (s : State) : State × Reply := (s, refusal st)

/-- A screen argument: BAD_ARGUMENT outside 0..7. -/
def withScreen (n : Nat) (s : State) (f : Fin 8 → State × Reply) : State × Reply :=
  if h : n < 8 then f ⟨n, h⟩ else refuse .badArgument s

/-! ### Codes read (R190, R191) -/

/-- The byte of a flag, or of a value of active or inactive, is 00h or 01h (R183 step 3). -/
def isFlag (x : Nat) : Bool := x ≤ 1

def flagOf (x : Nat) : Bool := x = 1

def modeOf : Nat → Option DecodeMode
  | 0 => some .discrete
  | 1 => some .matrix
  | _ => none

/-- A selector from its code and its link channel byte, which is read for LINK only (R191). -/
def selectorOf (code link : Nat) : Option Selector :=
  match code with
  | 0 => some .silent
  | 1 => if h : link < 16 then some (.link ⟨link, h⟩) else none
  | 2 => some .decL
  | 3 => some .decC
  | 4 => some .decR
  | 5 => some .decS
  | _ => none

/-- An origin from its code and its slot byte, which is read for LIBRARY only (R191). -/
def originOf (code slot : Nat) : Option Origin :=
  match code with
  | 1 => some .active
  | 2 => some .empty
  | 3 => if h : slot < 48 then some (.library ⟨slot, h⟩) else none
  | _ => none

def watchKindOf : Nat → Option WatchKind
  | 0 => some .none
  | 1 => some .silence
  | 2 => some .over
  | _ => none

def actionOf : Nat → Option AlarmAction
  | 0 => some .none
  | 1 => some .fallback
  | 2 => some .holdCues
  | _ => none

def severityOf : Nat → Option Severity
  | 1 => some .notice
  | 2 => some .warning
  | 3 => some .critical
  | _ => none

/-- The kinds in the order of their codes 01h..0Eh (R190). -/
def kindTable : List AlarmKind :=
  [.silence, .over, .clip, .linkLost, .linkOverrun, .linkMismatch, .engineLate, .cueLate, .cueBlocked, .cueMark,
   .draftExpired, .relayFault, .libraryCorrupt, .libraryDone]

def kindOf (code : Nat) : Option AlarmKind := if code = 0 then none else kindTable[code - 1]?

/-- A scope from its byte: a screen number, or FFh for DEVICE (R190). -/
def scopeOf (b : Nat) : Option Scope :=
  if h : b < 8 then some (.screen ⟨b, h⟩) else if b = 255 then some .device else none

/-- An identity from its three bytes, if it is one of R134. -/
def identityOf (kind scope index : Nat) : Option AlarmId :=
  match kindOf kind, scopeOf scope with
  | some k, some sc =>
    let id : AlarmId := { kind := k, scope := sc, index := index }
    if validId id then some id else none
  | _, _ => none

def lineModeOf : Nat → Option LineMode
  | 0 => some .off
  | 1 => some .severity
  | 2 => some .follow
  | _ => none

/-- A drive of a cue line, if its arguments are in range: LEVEL active or inactive, PULSE of 1..65,535 (R152,
R165). -/
def driveOf : RawDrive → Option LineDrive
  | .level v => if isFlag v then some (.level (flagOf v)) else none
  | .pulse l => if l = 0 then none else some (.pulse l)
  | .other _ => none

/-- A cue action, if its arguments are in range, with its FADE clamped, and whether a value was clamped (R152). -/
def cueActionOf : RawAction → Option (CueAction × Bool)
  | .relay e m v =>
    if h : e < 8 then some (.relay ⟨e, h⟩ (BitVec.ofNat 16 m) (BitVec.ofNat 16 v), false) else none
  | .line l d =>
    if h : l < 8 then (driveOf d).map fun x => (.line ⟨l, h⟩ x, false) else none
  | .fade level length =>
    some (.fade (min level 100) (min length Config.maxRamp), 100 < level || Config.maxRamp < length)
  | .mute => some (.mute, false)
  | .unmute => some (.unmute, false)
  | .format m => (modeOf m).map fun x => (.format x, false)
  | .eqSelect k => if h : k < 48 then some (.eqSelect ⟨k, h⟩, false) else none
  | .mark => some (.mark, false)
  | .other _ => none

/-! ### Fields written (R180, R192) -/

def byteOf (n : Nat) : List Byte := [BitVec.ofNat 8 n]

/-- A 16-bit number, most significant byte first. -/
def halfOf (n : Nat) : List Byte := byteOf (n / 256) ++ byteOf n

/-- A 32-bit number, most significant byte first. -/
def wordOf (n : Nat) : List Byte := halfOf (n / 65536) ++ halfOf n

/-- A 64-bit number, most significant byte first. -/
def longOf (n : Nat) : List Byte := wordOf (n / 4294967296) ++ wordOf n

/-- A one-byte number in two's complement. -/
def signedByteOf (x : Int) : List Byte := [BitVec.ofInt 8 x]

def flagByte (b : Bool) : List Byte := byteOf (if b then 1 else 0)

/-- A field, or the fields of one record, that may be absent: a presence byte, then its bytes, `len` of them, 0 when
absent (R192). A flag the rule itself names, such as the held flag of a snapshot, is that byte (log entry 17). -/
def optionalOf {α : Type} (f : α → List Byte) (len : Nat) (x : Option α) : List Byte :=
  flagByte x.isSome ++ (match x with
    | some a => f a
    | none => List.replicate len 0)

/-- A 32-bit field that may be absent (R192). -/
def optionalWord (x : Option Word) : List Byte := optionalOf (fun w => wordOf w.toNat) 4 x

/-- A list whose number of items can vary: a 16-bit count, then the items (R192). -/
def listOf {α : Type} (f : α → List Byte) (xs : List α) : List Byte := halfOf xs.length ++ xs.flatMap f

def screenStateByte : ScreenState → List Byte
  | .off => byteOf 0
  | .ready => byteOf 1
  | .playing => byteOf 2
  | .fallback => byteOf 3

def linkStateByte : LinkState → List Byte
  | .down => byteOf 0
  | .acquiring => byteOf 1
  | .locked => byteOf 2
  | .holdover => byteOf 3

def modeByte : DecodeMode → List Byte
  | .discrete => byteOf 0
  | .matrix => byteOf 1

/-- A selector: its code, and its link channel byte, 0 where it names none (R191). -/
def selectorBytes : Selector → List Byte
  | .silent => byteOf 0 ++ byteOf 0
  | .link n => byteOf 1 ++ byteOf n.val
  | .decL => byteOf 2 ++ byteOf 0
  | .decC => byteOf 3 ++ byteOf 0
  | .decR => byteOf 4 ++ byteOf 0
  | .decS => byteOf 5 ++ byteOf 0

def severityByte : Severity → List Byte
  | .notice => byteOf 1
  | .warning => byteOf 2
  | .critical => byteOf 3

def actionByte : AlarmAction → List Byte
  | .none => byteOf 0
  | .fallback => byteOf 1
  | .holdCues => byteOf 2

def scopeByte : Scope → List Byte
  | .screen n => byteOf n.val
  | .device => byteOf 255

/-- An alarm identity: kind, scope, index (R190, R192). -/
def identityBytes (id : AlarmId) : List Byte :=
  byteOf ((kindRow id.kind).val + 1) ++ scopeByte id.scope ++ byteOf id.index

def watchKindByte : WatchKind → List Byte
  | .none => byteOf 0
  | .silence => byteOf 1
  | .over => byteOf 2

/-- A 32-bit word, most significant byte first. -/
def wordBytes (w : Word) : List Byte := wordOf w.toNat

/-- The channel records of a bank as READ_BANK and GET_DRAFT return them (R189). -/
def bankBytes (b : Bank) : List Byte := (bankWords b).flatMap wordBytes

def driveBytes : LineDrive → List Byte
  | .level a => byteOf 0 ++ flagByte a
  | .pulse l => byteOf 1 ++ halfOf l

/-- A cue action: its kind byte, then its arguments (R191, R192). -/
def cueActionBytes : CueAction → List Byte
  | .relay e m v => byteOf 1 ++ byteOf e.val ++ halfOf m.toNat ++ halfOf v.toNat
  | .line l d => byteOf 2 ++ byteOf l.val ++ driveBytes d
  | .fade level length => byteOf 3 ++ halfOf level ++ halfOf length
  | .mute => byteOf 4
  | .unmute => byteOf 5
  | .format m => byteOf 6 ++ modeByte m
  | .eqSelect k => byteOf 7 ++ byteOf k.val
  | .mark => byteOf 8

def cueStateByte : CueState → List Byte
  | .armed => byteOf 0
  | .held _ => byteOf 1
  | .fired => byteOf 2
  | .skipped => byteOf 3
  | .late => byteOf 4
  | .failed => byteOf 5

/-- The held-at of a cue state, absent outside HELD (R149). -/
def heldAt : CueState → Option Word
  | .held since => some since
  | _ => none

/-- A status's code (R184). -/
def statusCode : Status → Byte
  | .ok => 0x00 | .accepted => 0x01 | .badFrame => 0x10 | .badRequest => 0x11 | .badArgument => 0x12
  | .badState => 0x13 | .badTable => 0x14 | .busy => 0x15 | .draftHeld => 0x16 | .notHolder => 0x17
  | .unstable => 0x18 | .poolFull => 0x19 | .duplicateId => 0x1A | .notFound => 0x1B | .slotEmpty => 0x1C
  | .slotBusy => 0x1D | .noResponse => 0x1E

/-- The bytes of a response: status, flags with CLAMPED at weight 1 and DROPPED at weight 2, length, data (R182,
R184). -/
def responseBytes (r : Response) : List Byte :=
  [statusCode r.status] ++ byteOf ((if r.clamped then 1 else 0) + (if r.dropped then 2 else 0))
    ++ halfOf r.data.length ++ r.data

/-- What a READ frame sends when the slot holds no response (R182). -/
def noResponseBytes : List Byte := [statusCode .noResponse, 0, 0, 0]

/-! ### Arguments of a frame (R180, R191) -/

/-- Splits argument bytes into unsigned numbers of the widths given, most significant byte first; none when the
bytes do not fit the widths exactly (R183 step 3). -/
def splitFields : List Nat → List Byte → Option (List Nat)
  | [], [] => some []
  | [], _ :: _ => none
  | w :: ws, bs =>
    if bs.length < w then none
    else (splitFields ws (bs.drop w)).map fun rest => bigEndian (bs.take w) :: rest

/-- A 32-bit argument as a signed number (R180). -/
def signed32 (n : Nat) : Int := (BitVec.ofNat 32 n).toInt

end Sys2Proof.Machine
end

