-- ==== Sys2Proof/Machine/PortOps.lean ====
section
/-! DEFINITION. The Port Interface: frames, the response slot, the service of a port (sections 11.1 to 11.3). -/

namespace Sys2Proof.Machine

open Sys2Proof

/-! ### REQUEST frames (R180, R181) -/

/-- A REQUEST frame is malformed: fewer than 4 bytes, a byte count that is not 4 plus its length, a length above
512, or a kind byte other than 01h (R180). -/
def malformedFrame (bytes : List Byte) : Bool :=
  let length := bigEndian ((bytes.drop 2).take 2)
  bytes.length < 4 || bytes.length ≠ 4 + length || 512 < length || bytes.headD 0 ≠ 1

/-- What the port keeps of an arrived REQUEST frame (R179, R180). -/
def heldRequest (bytes : List Byte) : HeldRequest :=
  { kind := bytes.headD 0
    code := bytes.getD 1 0
    length := bigEndian ((bytes.drop 2).take 2)
    arguments := (bytes.drop 4).take 512
    malformed := malformedFrame bytes }

/-- The arrival of a REQUEST frame acts on the slot (R181). -/
def arriveRequest (bytes : List Byte) (r : PortRecord) : PortRecord :=
  match r.slot with
  | .empty | .ready _ => { r with slot := .pending (heldRequest bytes) }
  | .pending _ => { r with dropped := true }

/-! ### READ frames (R182) -/

/-- What a READ frame sends is fixed when its kind byte is received. -/
def fixRead (r : PortRecord) : PortRecord :=
  { r with
    frame := some (match r.slot with
      | .ready x => { bytes := responseBytes x, isResponse := true }
      | _ => { bytes := noResponseBytes, isResponse := false }) }

/-- Chip select rises on a READ frame after `clocked` bytes beyond the kind byte: a frame that was sending a
response empties the slot once its four header bytes have been clocked out. -/
def endRead (clocked : Nat) (r : PortRecord) : PortRecord :=
  match r.frame with
  | some f =>
    if f.isResponse && 4 ≤ clocked then
      { r with
        frame := none
        slot := match r.slot with
          | .ready _ => .empty
          | x => x }
    else { r with frame := none }
  | none => r

/-! ### Data out (R180, R182, R193) -/

/-- What a port's data out line does through one byte of clocks. -/
inductive DataOut where
  | floats
  | sends (value : Byte)
deriving DecidableEq, Repr

/-- What data out sends in byte `k` of the frame in progress, the kind byte being byte 0. A READ frame sends what its
kind byte fixed, and 00h beyond it (R182); the kind byte itself, a REQUEST frame (R180) and a frame the port does
not receive (log entry 24) get 00h throughout. -/
def frameByte (r : PortRecord) (k : Nat) : Byte :=
  match r.frame, k with
  | some f, j + 1 => f.bytes.getD j 0
  | _, _ => 0

/-- The data out line of a port drives only while its chip select is low (R193). -/
def dataOut (selected : Bool) (r : PortRecord) (k : Nat) : DataOut :=
  if selected then .sends (frameByte r k) else .floats

/-! ### The service of a port (R183) -/

/-- A port's record when its response is placed: the slot becomes READY, and Dropped adds its flag and is cleared
(R183). -/
def placed (rep : Reply) (r : PortRecord) : PortRecord :=
  { r with
    slot := .ready { status := rep.status, clamped := rep.clamped, dropped := r.dropped, data := rep.data }
    dropped := false }

/-- The arbiter takes a port's held request: the port becomes the last served (R183). -/
def takeHeld (p : Port) (s : State) : State :=
  onPort p (fun r => { r with slot := .empty }) { s with port := { s.port with lastServed := p } }

/-- A port is served: its request is taken, its owner acts, and its response is placed, in one step (R183). -/
def servePort (p : Port) (owner : State → State × Reply) (s : State) : State :=
  let (t, rep) := owner (takeHeld p s)
  onPort p (placed rep) t

/-- The ports in rotating order after the last served (R183). -/
def portsAfter : Port → List Port
  | .A => [.B, .C, .A]
  | .B => [.C, .A, .B]
  | .C => [.A, .B, .C]

/-- The request a port holds, if its slot is PENDING. -/
def heldOf (r : PortRecord) : Option HeldRequest :=
  match r.slot with
  | .pending h => some h
  | _ => none

def portHolds (s : State) (p : Port) : Option HeldRequest := heldOf s.port.ports[portIndex p]

/-- The first PENDING port after the last served port (R183). -/
def nextPort (s : State) : Option Port :=
  (portsAfter s.port.lastServed).find? fun p => (portHolds s p).isSome

end Sys2Proof.Machine
end

