-- ==== Sys2Proof/Machine/BankRequests.lean ====
section
/-! DEFINITION. The requests on drafts, banks, the library and the memory: OPEN_DRAFT to GET_MEMORY. -/

namespace Sys2Proof.Machine

open Sys2Proof

/-! ### Holders and touches (R82) -/

/-- Port `p` holds the draft. -/
def heldBy (p : Port) (d : Draft) : Bool :=
  match d.holder with
  | .port q _ => q = p
  | .cue _ => false

/-- The holder's touch of a draft: its last touch becomes the house period count (R82). -/
def touched (p : Port) (count : Word) (d : Draft) : Draft :=
  match d.holder with
  | .port q _ => if q = p then { d with holder := .port q count } else d
  | .cue _ => d

/-- A request of port `p` reaches the screen's draft (R82). -/
def touchDraft (p : Port) (n : Fin 8) (s : State) : State :=
  onDraft n (fun d => d.map (touched p s.system.housePeriods)) s

/-! ### OPEN_DRAFT (R80) -/

/-- The library's objection to an origin, if it has one, in the order of R80. -/
def libraryObjection (n : Fin 8) (o : Origin) (s : State) : Option Status :=
  match o with
  | .library k =>
    if s.memory.state = .initialising then some .busy
    else if s.library.slots[k].state = .empty then some .slotEmpty
    else if s.library.slots[k].state = .writing then some .slotBusy
    else if Config.libraryQueueDepth ≤ queueCount n s then some .busy
    else none
  | _ => none

/-- The draft OPEN_DRAFT creates, over a screen whose draft is removed (R80). -/
def createDraft (p : Port) (n : Fin 8) (o : Origin) (s : State) : State :=
  let holder := Holder.port p s.system.housePeriods
  match o with
  | .active =>
    onDraft n (fun _ => some { holder := holder, state := .editable, origin := o, content := some s.bank.banks[n] }) s
  | .empty =>
    onDraft n (fun _ => some { holder := holder, state := .editable, origin := o, content := some emptyBank }) s
  | .library k =>
    queueLoad k n (onDraft n (fun _ =>
      some { holder := holder, state := .loading, origin := o, content := none }) s)

/-- OPEN_DRAFT's answer when the draft is created: ACCEPTED for a load, OK otherwise (R80). -/
def openStatus : Origin → Status
  | .library _ => .accepted
  | _ => .ok

/-- The existing draft's objection to OPEN_DRAFT by port `p`, if it has one (R80). -/
def draftObjection (p : Port) (d : Option Draft) : Option Status :=
  match d with
  | none => none
  | some d =>
    if heldBy p d then (if d.state = .committing then some .badState else none) else some .draftHeld

def ownerOpenDraft (p : Port) (screen origin slot : Nat) (s : State) : State × Reply :=
  withScreen screen s fun n =>
    match originOf origin slot with
    | none => refuse .badArgument s
    | some o =>
      let s1 := touchDraft p n s
      match draftObjection p s.bank.drafts[n] with
      | some st => refuse st s1
      | none =>
        match libraryObjection n o s with
        | some st => refuse st s1
        | none => (createDraft p n o (removeDraft n s), answer (openStatus o) [])

/-- OPEN_DRAFT (R80). -/
def execOpenDraft (p : Port) (screen origin slot : Nat) (s : State) : Host.Outcome State Fault Refusal :=
  whenRunning s (servePort p (ownerOpenDraft p screen origin slot) s)

/-! ### Edits (R81) -/

/-- An edit of a draft's content by port `p`, refused in the order of R81. DESIGN CHOICE (log entry 41): one that is
refused with BUSY because its holder's draft is COMMITTING touches the draft (R82), although no edit reaches it (R84). -/
def editDraft (p : Port) (n : Fin 8) (edit : Bank → Bank) (clamped : Bool) (s : State) : State × Reply :=
  match s.bank.drafts[n] with
  | none => refuse .badState s
  | some d =>
    if !heldBy p d then refuse .notHolder s
    else if d.state ≠ .editable then refuse .busy (touchDraft p n s)
    else
      (onDraft n (fun x => x.map fun y => { y with content := y.content.map edit }) (touchDraft p n s),
        answerClamped .ok clamped)

def ownerSetSection (p : Port) (screen channel sec inUse : Nat) (b0 b1 b2 a1 a2 : Int) (s : State) :
    State × Reply :=
  withScreen screen s fun n =>
    if h : channel < 16 ∧ sec < 12 ∧ isFlag inUse = true ∧ ([b0, b1, b2, a1, a2].all codeInRange) = true then
      editDraft p n (fun b => update b ⟨channel, h.1⟩ fun r =>
        { r with
          sections := update r.sections ⟨sec, h.2.1⟩ fun _ =>
            { inUse := flagOf inUse, b0 := b0, b1 := b1, b2 := b2, a1 := a1, a2 := a2 } }) false s
    else refuse .badArgument s

/-- SET_SECTION (R81). -/
def execSetSection (p : Port) (screen channel sec inUse : Nat) (b0 b1 b2 a1 a2 : Int) (s : State) :
    Host.Outcome State Fault Refusal :=
  whenRunning s (servePort p (ownerSetSection p screen channel sec inUse b0 b1 b2 a1 a2) s)

def ownerSetChannel (p : Port) (screen channel trim delay invert : Nat) (s : State) : State × Reply :=
  withScreen screen s fun n =>
    if h : channel < 16 ∧ isFlag invert = true then
      editDraft p n (fun b => update b ⟨channel, h.1⟩ fun r =>
        { r with trim := min trim Config.maxGain, delay := min delay Config.maxDelay, invert := flagOf invert })
        (Config.maxGain < trim || Config.maxDelay < delay) s
    else refuse .badArgument s

/-- SET_CHANNEL (R81). -/
def execSetChannel (p : Port) (screen channel trim delay invert : Nat) (s : State) :
    Host.Outcome State Fault Refusal :=
  whenRunning s (servePort p (ownerSetChannel p screen channel trim delay invert) s)

/-! ### COMMIT, ABANDON (R83, R85) -/

/-- COMMIT of an EDITABLE draft by its holder: the stability test, then the swap at once or staged (R83). -/
def commitEditable (n : Fin 8) (b : Bank) (s : State) : State × Reply :=
  match firstUnstable b with
  | some (c, k) => (s, { status := .unstable, clamped := false, data := byteOf c.val ++ byteOf k.val })
  | none =>
    (stageSwap n (onDraft n (fun x => x.map fun y => { y with state := .committing }) s),
      answer (if isOff n s then .ok else .accepted) [])

/-- COMMIT by port `p`, refused in the order of R83. DESIGN CHOICE (log entry 41): one that is refused with BAD_STATE
because its holder's draft is COMMITTING touches the draft (R82), although no commit reaches it (R84). -/
def ownerCommit (p : Port) (screen : Nat) (s : State) : State × Reply :=
  withScreen screen s fun n =>
    match s.bank.drafts[n] with
    | none => refuse .badState s
    | some d =>
      if !heldBy p d then refuse .notHolder s
      else
        let s1 := touchDraft p n s
        match d.state with
        | .loading => refuse .busy s1
        | .committing => refuse .badState s1
        | .editable => commitEditable n (d.content.getD emptyBank) s1

/-- COMMIT (R83). -/
def execCommit (p : Port) (screen : Nat) (s : State) : Host.Outcome State Fault Refusal :=
  whenRunning s (servePort p (ownerCommit p screen) s)

def ownerAbandon (p : Port) (screen : Nat) (s : State) : State × Reply :=
  withScreen screen s fun n =>
    match s.bank.drafts[n] with
    | none => refuse .badState s
    | some d =>
      if !heldBy p d then refuse .notHolder s
      else if d.state = .committing then refuse .badState s
      else (removeDraft n s, answer .ok [])

/-- ABANDON (R85). -/
def execAbandon (p : Port) (screen : Nat) (s : State) : Host.Outcome State Fault Refusal :=
  whenRunning s (servePort p (ownerAbandon p screen) s)

/-! ### Reading (R86, R189) -/

def holderByte : Holder → List Byte
  | .port .A _ => byteOf 1
  | .port .B _ => byteOf 2
  | .port .C _ => byteOf 3
  | .cue _ => byteOf 4

def draftStateByte : DraftState → List Byte
  | .loading => byteOf 1
  | .editable => byteOf 2
  | .committing => byteOf 3

/-- Origin and slot, FFh when the origin is not LIBRARY (R189). -/
def originBytes : Origin → List Byte
  | .active => byteOf 1 ++ byteOf 255
  | .empty => byteOf 2 ++ byteOf 255
  | .library k => byteOf 3 ++ byteOf k.val

/-- Last touch, 0 when the holder is CUE, and cue id, 0 when the holder is a port (R189). -/
def holderFields : Holder → List Byte
  | .port _ t => wordBytes t ++ halfOf 0
  | .cue id => wordOf 0 ++ halfOf id

/-- The data of GET_DRAFT (R189). -/
def draftData : Option Draft → List Byte
  | none => [0, 0, 0, 0, 0, 0]
  | some d =>
    flagByte true ++ holderByte d.holder ++ draftStateByte d.state ++ originBytes d.origin ++ byteOf 0
      ++ holderFields d.holder
      ++ (if d.state = .loading then [] else (d.content.map bankBytes).getD [])

def ownerGetDraft (p : Port) (screen : Nat) (s : State) : State × Reply :=
  withScreen screen s fun n =>
    let s1 := touchDraft p n s
    (s1, answer .ok (draftData s1.bank.drafts[n]))

/-- GET_DRAFT (R86); by the holder it is a touch (R82). -/
def execGetDraft (p : Port) (screen : Nat) (s : State) : Host.Outcome State Fault Refusal :=
  whenRunning s (servePort p (ownerGetDraft p screen) s)

def ownerReadBank (screen : Nat) (s : State) : State × Reply :=
  withScreen screen s fun n => (s, answer .ok (bankBytes s.bank.banks[n]))

/-- READ_BANK (R86). -/
def execReadBank (p : Port) (screen : Nat) (s : State) : Host.Outcome State Fault Refusal :=
  whenRunning s (servePort p (ownerReadBank screen) s)

/-! ### The library (R90, R94, R95) -/

/-- A library slot argument: BAD_ARGUMENT outside 0..47. -/
def withSlot (k : Nat) (s : State) (f : Fin 48 → State × Reply) : State × Reply :=
  if h : k < 48 then f ⟨k, h⟩ else refuse .badArgument s

/-- A slot is being written, or loads of it are pending (R90, R94). -/
def slotOccupied (d : Slot) : Bool := d.state = .writing || 0 < d.pending

/-- A taken SAVE_LIBRARY: the slot becomes WRITING and the entry joins the queue (R90). -/
def queueSave (k : Fin 48) (n : Fin 8) (tag : Nat) (s : State) : State :=
  let s1 := onSlot k (fun d => { d with state := .writing, tag := 0, check := 0 }) s
  { s1 with
    library := { s1.library with
      queue := s1.library.queue
        ++ [{ task := .save (BitVec.ofNat 32 tag), slot := k, screen := n, discarded := false }] } }

/-- SAVE_LIBRARY with the refusals in the order in which R90 names them (DESIGN CHOICE, log entry 47). -/
def ownerSaveLibrary (slot screen tag : Nat) (s : State) : State × Reply :=
  withSlot slot s fun k =>
    withScreen screen s fun n =>
      if s.memory.state = .initialising then refuse .busy s
      else if slotOccupied s.library.slots[k] then refuse .slotBusy s
      else if Config.libraryQueueDepth ≤ s.library.queue.length then refuse .busy s
      else (queueSave k n tag s, answer .accepted [])

/-- SAVE_LIBRARY (R90). -/
def execSaveLibrary (p : Port) (slot screen tag : Nat) (s : State) : Host.Outcome State Fault Refusal :=
  whenRunning s (servePort p (ownerSaveLibrary slot screen tag) s)

def ownerEraseSlot (slot : Nat) (s : State) : State × Reply :=
  withSlot slot s fun k =>
    if slotOccupied s.library.slots[k] then refuse .slotBusy s
    else (onSlot k (fun d => { d with state := .empty, tag := 0, check := 0 }) s, answer .ok [])

/-- ERASE_SLOT (R94). -/
def execEraseSlot (p : Port) (slot : Nat) (s : State) : Host.Outcome State Fault Refusal :=
  whenRunning s (servePort p (ownerEraseSlot slot) s)

def slotStateByte : SlotState → List Byte
  | .empty => byteOf 0
  | .valid => byteOf 1
  | .writing => byteOf 2

/-- A directory entry (R95): tag and check value are absent, and sent as 0, when the slot is not VALID (R87). -/
def slotData (d : Slot) : List Byte :=
  slotStateByte d.state ++ byteOf d.pending
    ++ optionalWord (if d.state = .valid then some d.tag else none)
    ++ optionalWord (if d.state = .valid then some d.check else none)

/-- The kind of a library queue entry, in the order of R89. -/
def taskByte : LibraryTask → List Byte
  | .load => byteOf 0
  | .save _ => byteOf 1

/-- The tag of a SAVE, absent for a LOAD (R89, R95). -/
def taskTag : LibraryTask → Option Word
  | .load => none
  | .save tag => some tag

/-- A library queue entry (R95): the kind, slot and screen, the tag of a SAVE, and whether it is in progress with the
bursts completed; `progress` is given for the entry in progress. -/
def entryData (e : LibraryEntry) (progress : Option Nat) : List Byte :=
  taskByte e.task ++ byteOf e.slot.val ++ byteOf e.screen.val ++ optionalWord (taskTag e.task)
    ++ optionalOf byteOf 1 progress

/-- The library queue, oldest first, its head in progress if the engine is not idle (R95). -/
def queueData (l : LibraryEngine) : List Byte :=
  halfOf l.queue.length
    ++ (match l.queue with
      | [] => []
      | e :: rest => entryData e l.progress ++ rest.flatMap fun x => entryData x none)

def ownerGetLibrary (s : State) : State × Reply :=
  (s, answer .ok (s.library.slots.toList.flatMap slotData ++ queueData s.library))

/-- GET_LIBRARY (R95). -/
def execGetLibrary (p : Port) (s : State) : Host.Outcome State Fault Refusal :=
  whenRunning s (servePort p ownerGetLibrary s)

/-! ### The memory (R115) -/

/-- The place of an initialisation step in the list of R99. -/
def stepPlace : InitStep → Nat
  | .wait => 0
  | .precharge => 1
  | .refresh k => 1 + k
  | .modeSet => 10
  | .done => 11

/-- The operation on the bus (R99, R115). DESIGN CHOICE (log entry 42): an initialisation step is sent as code 01h and the
place of the step, which the response's field before has given already. -/
def busData (m : MemoryController) : List Byte :=
  match m.bus with
  | .none => byteOf 0
  | .init => byteOf 1 ++ byteOf (stepPlace m.step)
  | .refresh => byteOf 2
  | .ring (.write k _ _) _ => byteOf 3 ++ byteOf k.val ++ byteOf 0
  | .ring (.read k _ _) _ => byteOf 3 ++ byteOf k.val ++ byteOf 1
  | .burst b _ _ => byteOf 4 ++ byteOf b.slot.val ++ byteOf b.number

def ringData (r : RingRecord) : List Byte := halfOf r.writeIndex ++ halfOf r.history ++ halfOf r.zeros

def memoryStateByte : MemoryState → List Byte
  | .initialising => byteOf 0
  | .ready => byteOf 1

/-- The data of GET_MEMORY (R115). -/
def memoryData (n : Fin 8) (m : MemoryController) : List Byte :=
  memoryStateByte m.state ++ byteOf (stepPlace m.step) ++ byteOf m.pending ++ halfOf m.forced ++ busData m
    ++ byteOf m.ringList.length ++ flagByte m.libraryRequest.isSome
    ++ allChannels.flatMap fun c => ringData m.rings[ringOf n c]

def ownerGetMemory (screen : Nat) (s : State) : State × Reply :=
  withScreen screen s fun n => (s, answer .ok (memoryData n s.memory))

/-- GET_MEMORY (R115). -/
def execGetMemory (p : Port) (screen : Nat) (s : State) : Host.Outcome State Fault Refusal :=
  whenRunning s (servePort p (ownerGetMemory screen) s)

end Sys2Proof.Machine
end

