-- ==== Sys2Proof/Machine/CueRequests.lean ====
section
/-! DEFINITION. The requests on cues, cue lines and relays: ADD_CUE to GET_EXPANDER. -/

namespace Sys2Proof.Machine

open Sys2Proof

/-! ### Editing the schedule (R152, R153) -/

/-- The state an added cue enters (R152). -/
def addedState (lastEnd : Option Word) (position : Word) : CueState :=
  match lastEnd with
  | some e => if position < e then .skipped else .armed
  | none => .armed

/-- ADD_CUE in the order of R152. DESIGN CHOICE (log entry 43): a request with a FADE value above its limit that is refused
with DUPLICATE_ID or POOL_FULL is answered without CLAMPED, and DUPLICATE_ID goes before POOL_FULL (log entry 47). -/
def ownerAddCue (screen id position lateLimit catchUp : Nat) (action : RawAction) (s : State) : State × Reply :=
  withScreen screen s fun n =>
    match cueActionOf action with
    | some (act, clamped) =>
      if id = 0 || !isFlag catchUp then refuse .badArgument s
      else if (findCue n id s).isSome then refuse .duplicateId s
      else if Config.poolSize ≤ s.cue.pool.length then refuse .poolFull s
      else
        let pos := BitVec.ofNat 32 position
        let st := addedState s.cue.schedules[n].lastEnd pos
        (onPool (insertCue
          { screen := n, id := id, position := pos, action := act, lateLimit := lateLimit
            catchUp := flagOf catchUp, state := st }) s,
          { status := .ok, clamped := clamped, data := cueStateByte st })
    | none => refuse .badArgument s

/-- ADD_CUE (R152). -/
def execAddCue (p : Port) (screen id position lateLimit catchUp : Nat) (action : RawAction) (s : State) :
    Host.Outcome State Fault Refusal :=
  whenRunning s (servePort p (ownerAddCue screen id position lateLimit catchUp action) s)

def ownerRemoveCue (screen id : Nat) (s : State) : State × Reply :=
  withScreen screen s fun n =>
    if id = 0 then refuse .badArgument s
    else if (findCue n id s).isNone then refuse .notFound s
    else (onPool (fun q => q.filter fun c => !(c.screen = n && c.id = id)) s, answer .ok [])

/-- REMOVE_CUE (R153). -/
def execRemoveCue (p : Port) (screen id : Nat) (s : State) : Host.Outcome State Fault Refusal :=
  whenRunning s (servePort p (ownerRemoveCue screen id) s)

def ownerClearCues (screen : Nat) (s : State) : State × Reply :=
  withScreen screen s fun n =>
    (onPool (fun q => q.filter fun c => c.screen ≠ n) s, answer .ok (halfOf (cueList n s).length))

/-- CLEAR_CUES (R153). -/
def execClearCues (p : Port) (screen : Nat) (s : State) : Host.Outcome State Fault Refusal :=
  whenRunning s (servePort p (ownerClearCues screen) s)

/-! ### LIST_CUES (R154) -/

/-- A cue with all the fields of R149. -/
def cueData (c : Cue) : List Byte :=
  byteOf c.screen.val ++ halfOf c.id ++ wordBytes c.position ++ cueActionBytes c.action ++ halfOf c.lateLimit
    ++ flagByte c.catchUp ++ cueStateByte c.state ++ optionalWord (heldAt c.state)

def lineData (l : CueLine) : List Byte :=
  byteOf (if l.pulse then 1 else 0) ++ flagByte l.level ++ halfOf l.remaining

def scheduleData (r : Schedule) : List Byte := flagByte r.enable ++ optionalWord r.lastEnd

/-- The cues LIST_CUES returns: up to 32 from the starting place onward. -/
def cuesFrom (n : Fin 8) (start : Nat) (s : State) : List Cue := ((cueList n s).drop start).take 32

def ownerListCues (screen start : Nat) (s : State) : State × Reply :=
  withScreen screen s fun n =>
    (s, answer .ok
      (halfOf (cueList n s).length ++ listOf cueData (cuesFrom n start s) ++ scheduleData s.cue.schedules[n]
        ++ halfOf (Config.poolSize - s.cue.pool.length) ++ s.cue.lines.toList.flatMap lineData))

def execListCues (p : Port) (screen start : Nat) (s : State) : Host.Outcome State Fault Refusal :=
  whenRunning s (servePort p (ownerListCues screen start) s)

/-! ### CUE_ENABLE and DRIVE_LINE (R160, R165) -/

def ownerCueEnable (screen value : Nat) (s : State) : State × Reply :=
  withScreen screen s fun n =>
    if !isFlag value then refuse .badArgument s
    else if flagOf value then
      let held := heldCues n s
      let t := enableCues n s
      (t, answer .ok (halfOf (countIn n held .fired t) ++ halfOf (countIn n held .failed t)
        ++ halfOf (countIn n held .late t)))
    else (onSchedule n (fun r => { r with enable := false }) s, answer .ok [])

/-- CUE_ENABLE (R160). -/
def execCueEnable (p : Port) (screen value : Nat) (s : State) : Host.Outcome State Fault Refusal :=
  whenRunning s (servePort p (ownerCueEnable screen value) s)

def ownerDriveLine (line : Nat) (drive : RawDrive) (s : State) : State × Reply :=
  if h : line < 8 then
    match driveOf drive with
    | some d => (driveCueLine ⟨line, h⟩ d s, answer .ok (lineData s.cue.lines[line]))
    | none => refuse .badArgument s
  else refuse .badArgument s

/-- DRIVE_LINE (R165). -/
def execDriveLine (p : Port) (line : Nat) (drive : RawDrive) (s : State) : Host.Outcome State Fault Refusal :=
  whenRunning s (servePort p (ownerDriveLine line drive) s)

/-! ### Relays (R168, R169, R178) -/

/-- An expander argument: BAD_ARGUMENT outside 0..7. -/
def withExpander (e : Nat) (s : State) (f : Fin 8 → State × Reply) : State × Reply :=
  if h : e < 8 then f ⟨e, h⟩ else refuse .badArgument s

/-- Another present entry has the address (R168). -/
def addressTaken (e : Fin 8) (address : Nat) (s : State) : Bool :=
  allScreens.any fun i => i ≠ e && s.relay.expanders[i].present && s.relay.expanders[i].address = address

/-- A transaction of the expander is in flight (R168). -/
def inFlight (e : Fin 8) (s : State) : Bool := s.relay.flight.any fun f => f.expander = e

/-- An entry after a taken SET_EXPANDER (R168). -/
def configured (present : Bool) (address : Nat) (wide verify : Bool) (x : Expander) : Expander :=
  let y := { x with present := present, address := address, wide := wide, verify := verify }
  if present ≠ x.present then { y with desired := 0, confirmed := none, state := .unknown }
  else if present && (address ≠ x.address || wide ≠ x.wide) then
    { y with confirmed := none, state := .unknown, desired := x.desired &&& outputMask wide }
  else y

/-- A taken SET_EXPANDER: the entry, its unstarted queue entry if present is cleared, and the absence of RELAY_FAULT
when the state moves from FAULTY to UNKNOWN (R168). -/
def configureExpander (e : Fin 8) (present : Bool) (address : Nat) (wide verify : Bool) (s : State) : State :=
  let old := s.relay.expanders[e]
  let s1 := onExpander e (configured present address wide verify) s
  let s2 := if old.present && !present then
      onRelay (fun r => { r with unstarted := r.unstarted.filter (· ≠ e) }) s1
    else s1
  if old.state = .faulty && s2.relay.expanders[e].state = .unknown
  then sendAbsence (deviceAlarm .relayFault e.val) s2 else s2

/-- SET_EXPANDER with the refusals in the order in which R168 names them (DESIGN CHOICE, log entry 47). -/
def ownerSetExpander (expander present address width verify : Nat) (s : State) : State × Reply :=
  withExpander expander s fun e =>
    if !isFlag present || !isFlag verify || address < 0x08 || 0x77 < address || (width ≠ 8 && width ≠ 16)
        || (flagOf present && addressTaken e address s) then refuse .badArgument s
    else if inFlight e s then refuse .busy s
    else (configureExpander e (flagOf present) address (width = 16) (flagOf verify) s, answer .ok [])

/-- SET_EXPANDER (R168). -/
def execSetExpander (p : Port) (expander present address width verify : Nat) (s : State) :
    Host.Outcome State Fault Refusal :=
  whenRunning s (servePort p (ownerSetExpander expander present address width verify) s)

def ownerRelayWrite (expander mask values : Nat) (s : State) : State × Reply :=
  withExpander expander s fun e =>
    if !s.relay.expanders[e].present then refuse .badState s
    else
      let t := relayRequest e (BitVec.ofNat 16 mask) (BitVec.ofNat 16 values) s
      (t, answer .accepted (halfOf t.relay.expanders[e].desired.toNat
        ++ byteOf (if s.relay.unstarted.contains e then 0 else 1)))

/-- RELAY_WRITE (R169): the response gives the new desired image, then 00h for folded or 01h for appended. -/
def execRelayWrite (p : Port) (expander mask values : Nat) (s : State) : Host.Outcome State Fault Refusal :=
  whenRunning s (servePort p (ownerRelayWrite expander mask values) s)

def expanderStateByte : ExpanderState → List Byte
  | .unknown => byteOf 0
  | .ok => byteOf 1
  | .faulty => byteOf 2

def expanderData (x : Expander) : List Byte :=
  flagByte x.present ++ byteOf x.address ++ byteOf (if x.wide then 16 else 8) ++ flagByte x.verify
    ++ halfOf x.desired.toNat ++ flagByte x.confirmed.isSome ++ halfOf (x.confirmed.getD 0).toNat
    ++ expanderStateByte x.state

def busStateByte : BusState → List Byte
  | .idle => byteOf 0
  | .start => byteOf 1
  | .address => byteOf 2
  | .writeData => byteOf 3
  | .stop => byteOf 4
  | .readAddress => byteOf 5
  | .readData => byteOf 6
  | .recover => byteOf 7

def recoveryByte : Recovery → List Byte
  | .none => byteOf 0
  | .cleared => byteOf 1
  | .stuck => byteOf 2

/-- The fields of a transaction in flight (R178). DESIGN CHOICE (log entry 36): "whether the verify part is due" is the
captured verify flag from the transaction's start to its end, also once the verify part has begun or a failure has
cancelled it, of which the spec says nothing. -/
def flightData (f : Flight) : List Byte :=
  byteOf f.expander.val ++ halfOf f.image.toNat ++ flagByte f.verify ++ byteOf f.bytes

/-- The queue, oldest first, each entry's expander and whether it is in flight (R178). -/
def relayQueue (r : RelayMaster) : List (Fin 8 × Bool) :=
  (match r.flight with
    | some f => [(f.expander, true)]
    | none => []) ++ r.unstarted.map fun e => (e, false)

def ownerGetExpander (s : State) : State × Reply :=
  let r := s.relay
  (s, answer .ok
    (r.expanders.toList.flatMap expanderData ++ busStateByte r.bus ++ byteOf r.stretch ++ byteOf r.pulses
      ++ recoveryByte r.lastRecovery ++ optionalOf flightData 5 r.flight
      ++ listOf (fun q => byteOf q.1.val ++ flagByte q.2) (relayQueue r)))

/-- GET_EXPANDER (R178). -/
def execGetExpander (p : Port) (s : State) : Host.Outcome State Fault Refusal :=
  whenRunning s (servePort p ownerGetExpander s)

end Sys2Proof.Machine
end

