-- ==== Sys2Proof/Machine/MeterRequests.lean ====
section
/-! DEFINITION. The requests on meters and alarms: READ_METERS to RELEASE_SNAPSHOT. -/

namespace Sys2Proof.Machine

open Sys2Proof

/-! ### Meters and watches (R121, R124, R130) -/

def meterData (m : Meter) : List Byte := wordOf m.peak ++ wordOf m.value ++ halfOf m.clips

def watchData (w : Watch) : List Byte :=
  watchKindByte w.kind ++ wordOf w.threshold ++ halfOf w.hold ++ actionByte w.action ++ halfOf w.run
    ++ flagByte w.raised

def ownerReadMeters (screen : Nat) (s : State) : State × Reply :=
  withScreen screen s fun n =>
    (s, answer .ok (s.meter.meters[n].toList.flatMap meterData ++ s.meter.watches[n].toList.flatMap watchData
      ++ byteOf s.meter.shift))

/-- READ_METERS (R124). -/
def execReadMeters (p : Port) (screen : Nat) (s : State) : Host.Outcome State Fault Refusal :=
  whenRunning s (servePort p (ownerReadMeters screen) s)

/-- The watch of a meter replaced; a RAISED one reports its absence first, with the action it held (R130). -/
def replaceWatch (n : Fin 8) (i : Fin 32) (w : Watch) (s : State) : State :=
  let old := (s.meter.watches[n])[i]
  let s1 := if old.raised then sendAlarm (watchReport n i old false) s else s
  { s1 with
    meter := { s1.meter with watches := update s1.meter.watches n fun ws => update ws i fun _ => w } }

def ownerSetWatch (screen meter kind threshold hold action : Nat) (s : State) : State × Reply :=
  withScreen screen s fun n =>
    match watchKindOf kind, actionOf action with
    | some k, some a =>
      if h : meter < 32 ∧ threshold ≤ Config.maxMeter ∧ hold ≠ 0 then
        (replaceWatch n ⟨meter, h.1⟩
          { kind := k, threshold := threshold, hold := hold, action := a, run := 0, raised := false } s,
          answer .ok [])
      else refuse .badArgument s
    | _, _ => refuse .badArgument s

/-- SET_WATCH (R130). -/
def execSetWatch (p : Port) (screen meter kind threshold hold action : Nat) (s : State) :
    Host.Outcome State Fault Refusal :=
  whenRunning s (servePort p (ownerSetWatch screen meter kind threshold hold action) s)

def ownerSetMeterRelease (shift : Nat) (s : State) : State × Reply :=
  ({ s with meter := { s.meter with shift := max 1 (min shift 12) } },
    answerClamped .ok (shift < 1 || 12 < shift))

/-- SET_METER_RELEASE (R121). -/
def execSetMeterRelease (p : Port) (shift : Nat) (s : State) : Host.Outcome State Fault Refusal :=
  whenRunning s (servePort p (ownerSetMeterRelease shift) s)

/-! ### The kind map, the routing table, the snapshots (R136, R145, R146) -/

/-- An action a kind's record may hold (R136). -/
def actionAllowed (k : AlarmKind) (a : AlarmAction) : Bool :=
  match a with
  | .none => true
  | .fallback => k = .linkLost
  | .holdCues => !isWatchKind k && !isDeviceKind k

def ownerSetSeverity (kind severity action : Nat) (s : State) : State × Reply :=
  match kindOf kind, severityOf severity, actionOf action with
  | some k, some v, some a =>
    if actionAllowed k a then
      (changeAlarm (fun x => { x with kindMap := update x.kindMap (kindRow k) fun _ => ⟨v, a⟩ }) s, answer .ok [])
    else refuse .badArgument s
  | _, _, _ => refuse .badArgument s

/-- SET_SEVERITY (R136). -/
def execSetSeverity (p : Port) (kind severity action : Nat) (s : State) : Host.Outcome State Fault Refusal :=
  whenRunning s (servePort p (ownerSetSeverity kind severity action) s)

def ownerSetRoute (severity mask : Nat) (s : State) : State × Reply :=
  match severityOf severity with
  | some v =>
    if mask < 8 then
      (changeAlarm (fun x =>
        { x with routes := update x.routes (severityRow v) fun _ => BitVec.ofNat 3 mask }) s, answer .ok [])
    else refuse .badArgument s
  | none => refuse .badArgument s

/-- SET_ROUTE (R146). -/
def execSetRoute (p : Port) (severity mask : Nat) (s : State) : Host.Outcome State Fault Refusal :=
  whenRunning s (servePort p (ownerSetRoute severity mask) s)

def ownerSetSnapshotLevel (severity : Nat) (s : State) : State × Reply :=
  match severityOf severity with
  | some v => (changeAlarm (fun x => { x with snapshotLevel := v }) s, answer .ok [])
  | none => refuse .badArgument s

/-- SET_SNAPSHOT_LEVEL (R145). -/
def execSetSnapshotLevel (p : Port) (severity : Nat) (s : State) : Host.Outcome State Fault Refusal :=
  whenRunning s (servePort p (ownerSetSnapshotLevel severity) s)

/-! ### Alarm lines (R147, R148) -/

/-- An alarm line argument: BAD_ARGUMENT outside 0..3. -/
def withLine (i : Nat) (s : State) (f : Fin 4 → State × Reply) : State × Reply :=
  if h : i < 4 then f ⟨i, h⟩ else refuse .badArgument s

def ownerSetLine (line mode threshold scopeMask follow : Nat) (s : State) : State × Reply :=
  withLine line s fun i =>
    match lineModeOf mode, severityOf threshold with
    | some m, some v =>
      if scopeMask < 512 && isFlag follow then
        (changeAlarm (fun x =>
          { x with
            lines := update x.lines i fun l =>
              { l with mode := m, threshold := v, scopes := BitVec.ofNat 9 scopeMask, follow := flagOf follow } }) s,
          answer .ok [])
      else refuse .badArgument s
    | _, _ => refuse .badArgument s

/-- SET_LINE (R147). -/
def execSetLine (p : Port) (line mode threshold scopeMask follow : Nat) (s : State) :
    Host.Outcome State Fault Refusal :=
  whenRunning s (servePort p (ownerSetLine line mode threshold scopeMask follow) s)

def ownerClearLineLatch (line : Nat) (s : State) : State × Reply :=
  withLine line s fun i =>
    (changeAlarm (fun x => { x with lines := update x.lines i fun l => { l with latch := false } }) s,
      answer .ok (flagByte s.alarm.lines[i].latch ++ flagByte (lineLevel s.alarm i)))

/-- CLEAR_LINE_LATCH (R148). -/
def execClearLineLatch (p : Port) (line : Nat) (s : State) : Host.Outcome State Fault Refusal :=
  whenRunning s (servePort p (ownerClearLineLatch line) s)

/-! ### The active set and the log (R141, R142, R143, R190) -/

/-- An entry of the active set, 19 bytes (R190). -/
def activeData (e : ActiveEntry) : List Byte :=
  identityBytes e.id ++ severityByte e.severity ++ actionByte e.action
    ++ byteOf ((if e.present then 1 else 0) + (if e.acknowledged then 2 else 0)
      + (if e.position.isSome then 4 else 0))
    ++ byteOf e.count ++ wordBytes e.firstRaise ++ wordBytes e.latestRaise ++ wordBytes (e.position.getD 0)

/-- The entries READ_ACTIVE returns: up to 32 from the starting place onward (R142). -/
def activeFrom (a : AlarmHandler) (start : Nat) : List ActiveEntry := (a.active.drop start).take 32

def ownerReadActive (start : Nat) (s : State) : State × Reply :=
  let a := s.alarm
  (s, answer .ok
    (halfOf a.active.length ++ [Port.A, .B, .C].flatMap (fun p => flagByte (attention a p))
      ++ (List.finRange 4).flatMap (fun i => flagByte (lineLevel a i) ++ flagByte a.lines[i].latch)
      ++ byteOf (activeFrom a start).length ++ (activeFrom a start).flatMap activeData))

/-- READ_ACTIVE (R142). -/
def execReadActive (p : Port) (start : Nat) (s : State) : Host.Outcome State Fault Refusal :=
  whenRunning s (servePort p (ownerReadActive start) s)

/-- ACK_ALARM (R141): kind byte FFh means ALL, and its scope and index are then not read (section 11.5). -/
def ownerAckAlarm (kind scope index : Nat) (s : State) : State × Reply :=
  if kind = 255 then (acknowledge (fun _ => true) s, answer .ok [])
  else match identityOf kind scope index with
    | none => refuse .badArgument s
    | some id =>
      if (findEntry s.alarm id).isNone then refuse .notFound s
      else (acknowledge (fun e => e.id = id) s, answer .ok [])

def execAckAlarm (p : Port) (kind scope index : Nat) (s : State) : Host.Outcome State Fault Refusal :=
  whenRunning s (servePort p (ownerAckAlarm kind scope index) s)

/-- An entry of the log, 13 bytes (R190). -/
def logData (e : LogEntry) : List Byte :=
  wordBytes e.sequence ++ wordBytes e.period ++ identityBytes e.id ++ severityByte e.severity
    ++ byteOf (if e.raised then 1 else 2)

/-- What READ_LOG returns from a sequence number on: whether entries were missed, and the entries (R143). -/
def logFrom (a : AlarmHandler) (start : Word) : Bool × List LogEntry :=
  if a.log.any fun e => e.sequence = start then (false, a.log.dropWhile fun e => e.sequence ≠ start)
  else if start = a.nextSequence then (false, [])
  else (true, a.log)

def ownerReadLog (start : Nat) (s : State) : State × Reply :=
  let r := logFrom s.alarm (BitVec.ofNat 32 start)
  (s, answer .ok (wordBytes s.alarm.nextSequence ++ flagByte r.1 ++ r.2.flatMap logData))

/-- READ_LOG (R143). -/
def execReadLog (p : Port) (start : Nat) (s : State) : Host.Outcome State Fault Refusal :=
  whenRunning s (servePort p (ownerReadLog start) s)

/-- The fields of a held snapshot (R144, R145). -/
def snapshotData (x : Snapshot) : List Byte :=
  identityBytes x.id ++ wordBytes x.period ++ optionalWord x.position ++ x.values.toList.flatMap wordOf

def ownerReadSnapshot (screen : Nat) (s : State) : State × Reply :=
  withScreen screen s fun n => (s, answer .ok (optionalOf snapshotData 140 s.alarm.snapshots[n]))

/-- READ_SNAPSHOT (R145). -/
def execReadSnapshot (p : Port) (screen : Nat) (s : State) : Host.Outcome State Fault Refusal :=
  whenRunning s (servePort p (ownerReadSnapshot screen) s)

def ownerReleaseSnapshot (screen : Nat) (s : State) : State × Reply :=
  withScreen screen s fun n =>
    (changeAlarm (fun x => { x with snapshots := update x.snapshots n fun _ => none }) s, answer .ok [])

/-- RELEASE_SNAPSHOT (R145). -/
def execReleaseSnapshot (p : Port) (screen : Nat) (s : State) : Host.Outcome State Fault Refusal :=
  whenRunning s (servePort p (ownerReleaseSnapshot screen) s)

end Sys2Proof.Machine
end

