-- ==== Sys2Proof/Machine/Resets.lean ====
section
/-! DEFINITION. The resets, the reset line, and the requests GET_STATUS and RESET_PART (section 11.4). -/

namespace Sys2Proof.Machine

open Sys2Proof

/-! ### Full resets (R186) -/

/-- A word that a cut-short transfer was writing: old or new (R102, log entry 2). -/
def cutWord (s : State) (a : Nat) (w : Word) : Word :=
  if Config.cutShortIsNew s.system.fullResets a then w else sdramWord s a

/-- The SDRAM words a write on the bus is writing, with the values it writes. -/
def wordsInWriting (s : State) : List WordCell :=
  match s.memory.bus with
  | .ring (.write k start vs) _ =>
    (List.range vs.length).map fun j => (ringWord k (start + j), sampleToWord (vs.getD j 0))
  | .burst b ws _ =>
    if b.write then (List.range ws.length).map fun j => (burstAddress b + j, ws.getD j 0) else []
  | _ => []

/-- The SDRAM after a full reset has stopped the memory bus (R97, R102): what it held, but for the words of a
transfer cut short. -/
def sdramAfterStop (s : State) : Memory :=
  (wordsInWriting s).foldl (fun m c => writeWord m c.1 (cutWord s c.1 c.2)) s.memory.sdram

/-- The Relay Bus Master at any reset (R177): a transaction in flight is abandoned unsettled, with a STOP condition given
on the bus. DESIGN CHOICE (log entry 39): the bus record takes its reset values at once, and the STOP lasts until
RELAY_STOP_CONDITION completes it, no other step of the bus coming before. -/
def relayAtReset (r : RelayMaster) : RelayMaster := resetRelay r.clockHeld (r.flight.isSome || r.abandoning)

/-- Every block at its full-reset values (R186). -/
def fullReset (kind : ResetKind) (sys : System) (sdram : Memory) (s : State) : State :=
  { State.reset with
    pending := s.pending
    system := { sys with lastReset := kind, housePeriods := 0, fullResets := s.system.fullResets + 1 }
    memory := resetMemory sdram
    relay := relayAtReset s.relay }

/-- POWER_ON_RESET (R97, R186): the supplies have come up, and the memory holds whatever it came up with. The level
of the reset line is the booth supervisor's. DESIGN CHOICE (log entry 37): a frame whose chip select is low when the
supplies come up with the line released is received, since R186 turns away only a frame low across the line's
release. -/
def execPowerOnReset (s : State) : Host.Outcome State Fault Refusal :=
  .next (fullReset .powerOn { s.system with powerOns := s.system.powerOns + 1 } [] s)

/-- LINE_RESET (R186): the reset line goes low, and the part stays at its reset values until it is released. -/
def execLineReset (s : State) : Host.Outcome State Fault Refusal :=
  .next (fullReset .line { s.system with lineHeld := true } (sdramAfterStop s) s)

/-- RESET_LINE_RELEASE (R186): the part begins to run; a port whose chip select is low receives from its next fall. -/
def execResetLineRelease (lowA lowB lowC : Bool) (s : State) : Host.Outcome State Fault Refusal :=
  if s.system.lineHeld then
    .next
      { s with
        system := { s.system with lineHeld := false }
        port := { s.port with
          ports := mapWith s.port.ports fun i r => { r with deaf := #v[lowA, lowB, lowC][i] } } }
  else .next s

/-! ### RESET_PART (R187) -/

/-- The Memory Controller at RESET_PART (R102): state, refresh and SDRAM stand, the operation on the bus completes
without effect on a ring record or on the Library Engine, the requests are withdrawn, the rings are reset. -/
def memoryAtPartReset (m : MemoryController) : MemoryController :=
  { m with
    bus := match m.bus with
      | .ring t _ => .ring t false
      | .burst b ws _ => .burst b ws false
      | b => b
    ringList := [], libraryRequest := none, rings := Vector.replicate 128 resetRing }

/-- The Library Engine at RESET_PART (R87). -/
def libraryAtPartReset (l : LibraryEngine) : LibraryEngine :=
  { slots := mapWith l.slots fun _ d => if d.state = .writing then emptySlot else { d with pending := 0 }
    queue := [], progress := none, buffer := clearBuffer }

/-- Every block at its reset values but for what RESET_PART keeps (R187). -/
def partReset (s : State) : State :=
  { State.reset with
    pending := s.pending
    system := { s.system with lastReset := .part, housePeriods := 0 }
    library := libraryAtPartReset s.library
    memory := memoryAtPartReset s.memory
    relay := relayAtReset s.relay
    port := { ports := mapWith s.port.ports fun _ r => { resetPort with frame := r.frame, deaf := r.deaf }
              lastServed := .C } }

def ownerResetPart (s : State) : State × Reply := (partReset s, answer .ok [])

/-- RESET_PART (R187): the reset, then OK in the requesting port's slot. -/
def execResetPart (p : Port) (s : State) : Host.Outcome State Fault Refusal :=
  whenRunning s (servePort p ownerResetPart s)

/-! ### GET_STATUS (R185) -/

def resetCode : ResetKind → Nat
  | .powerOn => 1
  | .line => 2
  | .part => 3

/-- Screens in service, screen n at weight 2^n (R185). -/
def serviceMask (s : State) : Nat :=
  allScreens.foldl (fun a n => if s.screens[n].state = .off then a else a + 2 ^ n.val) 0

/-- The data of GET_STATUS (R185). -/
def statusData (s : State) : List Byte :=
  halfOf 0x0816 ++ byteOf 1 ++ byteOf (resetCode s.system.lastReset) ++ wordBytes s.system.housePeriods
    ++ byteOf (if s.memory.state = .ready then 1 else 0) ++ byteOf (serviceMask s)

def ownerGetStatus (s : State) : State × Reply := (s, answer .ok (statusData s))

def execGetStatus (p : Port) (s : State) : Host.Outcome State Fault Refusal :=
  whenRunning s (servePort p ownerGetStatus s)

end Sys2Proof.Machine
end

