-- ==== Sys2Proof/Machine/ScreenRequests.lean ====
section
/-! DEFINITION. The requests on the screen, its link, its profile and its gain: SCREEN_ON to GET_FADER_LAW. -/

namespace Sys2Proof.Machine

open Sys2Proof

/-! ### The screen -/

/-- SCREEN_ON (R7): BAD_STATE on a screen in service, BUSY on an OFF screen while INITIALISING. The advances of the
screen's earlier service have reached the Cue Scheduler by then (R156, log entry 10). -/
def ownerScreenOn (screen : Nat) (s : State) : State × Reply :=
  withScreen screen s fun n =>
    if !isOff n s then refuse .badState s
    else if s.memory.state = .initialising then refuse .busy s
    else (enterService n (takeSentAdvances n s), answer .ok [])

def execScreenOn (p : Port) (screen : Nat) (s : State) : Host.Outcome State Fault Refusal :=
  whenRunning s (servePort p (ownerScreenOn screen) s)

/-- SCREEN_OFF (R8). -/
def ownerScreenOff (screen : Nat) (s : State) : State × Reply :=
  withScreen screen s fun n =>
    if isOff n s then refuse .badState s
    else if inService n s then
      (onScreen n (fun c => { c with offPending := true }) s, answer .accepted [])
    else (enterOff n s, answer .ok [])

def execScreenOff (p : Port) (screen : Nat) (s : State) : Host.Outcome State Fault Refusal :=
  whenRunning s (servePort p (ownerScreenOff screen) s)

/-- FORCE_FALLBACK (R10). -/
def ownerForceFallback (screen : Nat) (s : State) : State × Reply :=
  withScreen screen s fun n =>
    if isOff n s then refuse .badState s
    else (changeContext n (fun c => { c with hold := true }) s, answer .ok [])

def execForceFallback (p : Port) (screen : Nat) (s : State) : Host.Outcome State Fault Refusal :=
  whenRunning s (servePort p (ownerForceFallback screen) s)

/-- RESUME (R11). -/
def ownerResume (screen : Nat) (s : State) : State × Reply :=
  withScreen screen s fun n =>
    if isOff n s || !s.screens[n].causes.isEmpty then refuse .badState s
    else (changeContext n (fun c => { c with hold := false }) s, answer .ok [])

def execResume (p : Port) (screen : Nat) (s : State) : Host.Outcome State Fault Refusal :=
  whenRunning s (servePort p (ownerResume screen) s)

/-- The data of GET_SCREEN (R12). -/
def screenData (c : ScreenContext) : List Byte :=
  screenStateByte c.state ++ flagByte c.offPending ++ flagByte c.hold ++ byteOf c.queue.length
    ++ byteOf c.outstanding ++ byteOf c.owed ++ listOf identityBytes c.causes

def ownerGetScreen (screen : Nat) (s : State) : State × Reply :=
  withScreen screen s fun n => (s, answer .ok (screenData s.screens[n]))

def execGetScreen (p : Port) (screen : Nat) (s : State) : Host.Outcome State Fault Refusal :=
  whenRunning s (servePort p (ownerGetScreen screen) s)

/-- The data of GET_LINK (R38). DESIGN CHOICE (log entry 40): the number of packets in the queue that R38 names is one byte
of its own, before the 16-bit count that R192 puts in front of the list of positions. -/
def linkData (l : LinkRecord) : List Byte :=
  linkStateByte l.state ++ byteOf l.queue.length ++ listOf (fun q => wordBytes q.position) l.queue
    ++ wordBytes l.expected ++ byteOf l.acquisition ++ byteOf l.missed ++ byteOf l.quiet
    ++ wordBytes l.lastPosition ++ flagByte l.startPending ++ flagByte l.known ++ flagByte l.lossReported
    ++ byteOf l.takenCount ++ flagByte l.takenSilent

def ownerGetLink (screen : Nat) (s : State) : State × Reply :=
  withScreen screen s fun n => (s, answer .ok (linkData s.links[n]))

def execGetLink (p : Port) (screen : Nat) (s : State) : Host.Outcome State Fault Refusal :=
  whenRunning s (servePort p (ownerGetLink screen) s)

/-! ### The profile -/

/-- The answer to a taken profile change: OK when it took effect at once, ACCEPTED when it was staged (R41, R42). -/
def profileStatus (n : Fin 8) (s : State) : Status := if isOff n s then .ok else .accepted

/-- SET_PROFILE (R41). -/
def ownerSetProfile (screen tag mode lt rt depth autoReturn : Nat) (s : State) : State × Reply :=
  withScreen screen s fun n =>
    match modeOf mode with
    | some m =>
      if h : tag ≤ 255 ∧ lt < 16 ∧ rt < 16 ∧ lt ≠ rt ∧ isFlag autoReturn = true then
        (changeProfile n (fun q =>
          { q with
            tag := tag, mode := m, lt := ⟨lt, h.2.1⟩, rt := ⟨rt, h.2.2.1⟩, depth := min depth 8
            autoReturn := flagOf autoReturn }) markProfile s,
          answerClamped (profileStatus n s) (8 < depth))
      else refuse .badArgument s
    | none => refuse .badArgument s

def execSetProfile (p : Port) (screen tag mode lt rt depth autoReturn : Nat) (s : State) :
    Host.Outcome State Fault Refusal :=
  whenRunning s (servePort p (ownerSetProfile screen tag mode lt rt depth autoReturn) s)

/-- SET_SOURCE (R42). -/
def ownerSetSource (screen channel selector link : Nat) (s : State) : State × Reply :=
  withScreen screen s fun n =>
    match selectorOf selector link with
    | some sel =>
      if h : channel < 16 then
        (changeProfile n (fun q => { q with table := update q.table ⟨channel, h⟩ fun _ => sel }) markProfile s,
          answer (profileStatus n s) [])
      else refuse .badArgument s
    | none => refuse .badArgument s

def execSetSource (p : Port) (screen channel selector link : Nat) (s : State) : Host.Outcome State Fault Refusal :=
  whenRunning s (servePort p (ownerSetSource screen channel selector link) s)

/-- The six fields of a profile (R57). -/
def profileData (q : Profile) : List Byte :=
  wordOf q.tag ++ modeByte q.mode ++ byteOf q.lt.val ++ byteOf q.rt.val ++ byteOf q.depth
    ++ flagByte q.autoReturn ++ q.table.toList.flatMap selectorBytes

/-- The steering state and the gains (R57). -/
def steeringData (st : Steering) (k : SteeringGains) : List Byte :=
  longOf st.el ++ longOf st.er ++ longOf st.es ++ longOf st.ed ++ signedByteOf st.lr ++ signedByteOf st.fb
    ++ signedByteOf k.kc ++ signedByteOf k.ks ++ signedByteOf k.kl ++ signedByteOf k.kf

/-- The data of GET_PROFILE (R57). -/
def decoderData (d : DecoderRecord) : List Byte :=
  profileData d.profile
    ++ optionalOf profileData 41 d.staged
    ++ steeringData d.steering (steeringGains d.steering d.profile.depth)

def ownerGetProfile (screen : Nat) (s : State) : State × Reply :=
  withScreen screen s fun n => (s, answer .ok (decoderData s.decoder[n]))

def execGetProfile (p : Port) (screen : Nat) (s : State) : Host.Outcome State Fault Refusal :=
  whenRunning s (servePort p (ownerGetProfile screen) s)

/-! ### The gain -/

/-- SET_LEVEL (R70). -/
def ownerSetLevel (screen level length : Nat) (s : State) : State × Reply :=
  withScreen screen s fun n =>
    (setFader n level length s, answerClamped .ok (100 < level || Config.maxRamp < length))

def execSetLevel (p : Port) (screen level length : Nat) (s : State) : Host.Outcome State Fault Refusal :=
  whenRunning s (servePort p (ownerSetLevel screen level length) s)

/-- MUTE (R72). -/
def ownerMute (screen : Nat) (s : State) : State × Reply :=
  withScreen screen s fun n => (setMute n true s, answer .ok [])

def execMute (p : Port) (screen : Nat) (s : State) : Host.Outcome State Fault Refusal :=
  whenRunning s (servePort p (ownerMute screen) s)

/-- UNMUTE (R72). -/
def ownerUnmute (screen : Nat) (s : State) : State × Reply :=
  withScreen screen s fun n => (setMute n false s, answer .ok [])

def execUnmute (p : Port) (screen : Nat) (s : State) : Host.Outcome State Fault Refusal :=
  whenRunning s (servePort p (ownerUnmute screen) s)

/-- No entry is less than the entry before it (R69). -/
def neverFalls : List Nat → Bool
  | a :: b :: rest => a ≤ b && neverFalls (b :: rest)
  | _ => true

/-- SET_FADER_LAW (R69). DESIGN CHOICE (log entry 47): a table with an entry above 1,048,576 that also falls is refused with
BAD_ARGUMENT. -/
def ownerSetFaderLaw (entries : List Nat) (s : State) : State × Reply :=
  if entries.length ≠ 101 || entries.any (fun e => Config.maxGain < e) then refuse .badArgument s
  else if !neverFalls entries then refuse .badTable s
  else ({ s with gain := { s.gain with law := Vector.ofFn fun k => entries.getD k.val 0 } }, answer .ok [])

def execSetFaderLaw (p : Port) (entries : List Nat) (s : State) : Host.Outcome State Fault Refusal :=
  whenRunning s (servePort p (ownerSetFaderLaw entries) s)

/-- The four fields of a ramp in flight (R68, R74). -/
def rampData (r : Ramp) : List Byte := wordOf r.start ++ wordOf r.target ++ halfOf r.length ++ halfOf r.done

/-- A master level record (R74). -/
def levelData (m : MasterLevel) : List Byte :=
  halfOf m.level ++ wordOf m.gain ++ optionalOf rampData 12 m.ramp ++ flagByte m.muted ++ byteOf m.factor

def ownerGetFaderLaw (s : State) : State × Reply :=
  (s, answer .ok (s.gain.law.toList.flatMap wordOf ++ s.gain.levels.toList.flatMap levelData))

/-- GET_FADER_LAW (R74). -/
def execGetFaderLaw (p : Port) (s : State) : Host.Outcome State Fault Refusal :=
  whenRunning s (servePort p ownerGetFaderLaw s)

end Sys2Proof.Machine
end

