-- ==== Sys2Proof/Machine/PortEvents.lean ====
section
/-! DEFINITION. The frames on the ports, and the request arbiter with the request catalogue (R180 to R183, R191). -/

namespace Sys2Proof.Machine

open Sys2Proof

/-! ### Frames -/

/-- The end of a frame whose chip select was low across the release of the reset line: it was not received, and the
port receives from the next fall on (R186). -/
def straddled (r : PortRecord) : PortRecord := { r with deaf := false }

/-- The port at the rise of chip select on a frame that is no READ frame: 0 bytes are ignored, and what begins with
02h is a READ frame, whose end READ_FRAME_END stands for (R180, R181). -/
def endRequest (bytes : List Byte) (r : PortRecord) : PortRecord :=
  if r.deaf then straddled r
  else if r.frame.isSome || bytes.isEmpty || bytes.headD 0 = 2 then r
  else arriveRequest bytes r

/-- REQUEST_FRAME (R180, R181). -/
def execRequestFrame (p : Port) (bytes : List Byte) (s : State) : Host.Outcome State Fault Refusal :=
  whenRunning s (onPort p (endRequest bytes) s)

/-- READ_FRAME (R182): the kind byte fixes what the frame sends. -/
def execReadFrame (p : Port) (s : State) : Host.Outcome State Fault Refusal :=
  whenRunning s (onPort p (fun r => if r.deaf || r.frame.isSome then r else fixRead r) s)

/-- READ_FRAME_END (R182). -/
def execReadFrameEnd (p : Port) (clocked : Nat) (s : State) : Host.Outcome State Fault Refusal :=
  whenRunning s (onPort p (fun r => if r.deaf then straddled r else endRead clocked r) s)

/-! ### Arguments of each request (section 11.5, R191) -/

/-- An owner's way of taking a request. -/
abbrev Owner := State → State × Reply

/-- A request of no argument bytes. -/
def take0 (bs : List Byte) (f : Owner) : Option Owner := if bs.isEmpty then some f else none

/-- A request of one one-byte argument. -/
def take1 (bs : List Byte) (f : Nat → Owner) : Option Owner :=
  match splitFields [1] bs with
  | some [a] => some (f a)
  | _ => none

/-- A request of two arguments of the widths given. -/
def take2 (w v : Nat) (bs : List Byte) (f : Nat → Nat → Owner) : Option Owner :=
  match splitFields [w, v] bs with
  | some [a, b] => some (f a b)
  | _ => none

/-- A request of three arguments of the widths given. -/
def take3 (u v w : Nat) (bs : List Byte) (f : Nat → Nat → Nat → Owner) : Option Owner :=
  match splitFields [u, v, w] bs with
  | some [a, b, c] => some (f a b c)
  | _ => none

/-- A request of four one-byte arguments. -/
def take4 (bs : List Byte) (f : Nat → Nat → Nat → Nat → Owner) : Option Owner :=
  match splitFields [1, 1, 1, 1] bs with
  | some [a, b, c, d] => some (f a b c d)
  | _ => none

/-- A request of five arguments of the widths given. -/
def take5 (ws : List Nat) (bs : List Byte) (f : Nat → Nat → Nat → Nat → Nat → Owner) : Option Owner :=
  match splitFields ws bs with
  | some [a, b, c, d, e] => some (f a b c d e)
  | _ => none

/-- The drive of a cue line: the mode byte, then a value byte or a 16-bit length (R191). -/
def rawDrive (bs : List Byte) : Option RawDrive :=
  match bs with
  | m :: rest =>
    if m = 0 then
      match splitFields [1] rest with
      | some [v] => some (.level v)
      | _ => none
    else if m = 1 then
      match splitFields [2] rest with
      | some [l] => some (.pulse l)
      | _ => none
    else none
  | [] => none

/-- A cue action: its kind byte, then its arguments (R191). -/
def rawAction (bs : List Byte) : Option RawAction :=
  match bs with
  | k :: rest =>
    match k.toNat, rest with
    | 1, rest => match splitFields [1, 2, 2] rest with
      | some [e, m, v] => some (.relay e m v)
      | _ => none
    | 2, l :: rest => (rawDrive rest).map fun d => .line l.toNat d
    | 3, rest => match splitFields [2, 2] rest with
      | some [level, length] => some (.fade level length)
      | _ => none
    | 4, [] => some .mute
    | 5, [] => some .unmute
    | 6, [m] => some (.format m.toNat)
    | 7, [k] => some (.eqSelect k.toNat)
    | 8, [] => some .mark
    | _, _ => none
  | [] => none

def takeSetProfile (bs : List Byte) : Option Owner :=
  match splitFields [1, 4, 1, 1, 1, 1, 1] bs with
  | some [n, tag, mode, lt, rt, depth, back] => some (ownerSetProfile n tag mode lt rt depth back)
  | _ => none

def takeSetSection (p : Port) (bs : List Byte) : Option Owner :=
  match splitFields [1, 1, 1, 1, 4, 4, 4, 4, 4] bs with
  | some [n, c, k, u, b0, b1, b2, a1, a2] =>
    some (ownerSetSection p n c k u (signed32 b0) (signed32 b1) (signed32 b2) (signed32 a1) (signed32 a2))
  | _ => none

def takeSetWatch (bs : List Byte) : Option Owner :=
  match splitFields [1, 1, 1, 4, 2, 1] bs with
  | some [n, meter, kind, threshold, hold, action] => some (ownerSetWatch n meter kind threshold hold action)
  | _ => none

def takeAddCue (bs : List Byte) : Option Owner :=
  match splitFields [1, 2, 4, 2, 1] (bs.take 10), rawAction (bs.drop 10) with
  | some [n, id, position, late, catchUp], some a => some (ownerAddCue n id position late catchUp a)
  | _, _ => none

def takeDriveLine (bs : List Byte) : Option Owner :=
  match bs with
  | l :: rest => (rawDrive rest).map fun d => ownerDriveLine l.toNat d
  | [] => none

def takeFaderLaw (bs : List Byte) : Option Owner := (splitFields (List.replicate 101 4) bs).map ownerSetFaderLaw

/-! ### The catalogue (section 11.5) -/

/-- The owner's taking of a request of port `p`: nothing for a code that is not in the catalogue, and an absent owner
for argument bytes that do not fit the request. -/
def catalogue (p : Port) (code : Byte) (bs : List Byte) : Option (Option Owner) :=
  match code.toNat with
  | 0x10 => some (take1 bs ownerScreenOn)
  | 0x11 => some (take1 bs ownerScreenOff)
  | 0x12 => some (take1 bs ownerForceFallback)
  | 0x13 => some (take1 bs ownerResume)
  | 0x14 => some (take1 bs ownerGetScreen)
  | 0x18 => some (take1 bs ownerGetLink)
  | 0x20 => some (takeSetProfile bs)
  | 0x21 => some (take4 bs ownerSetSource)
  | 0x22 => some (take1 bs ownerGetProfile)
  | 0x28 => some (take3 1 2 2 bs ownerSetLevel)
  | 0x29 => some (take1 bs ownerMute)
  | 0x2A => some (take1 bs ownerUnmute)
  | 0x2B => some (takeFaderLaw bs)
  | 0x2C => some (take0 bs ownerGetFaderLaw)
  | 0x30 => some (take3 1 1 1 bs (ownerOpenDraft p))
  | 0x31 => some (takeSetSection p bs)
  | 0x32 => some (take5 [1, 1, 4, 4, 1] bs (ownerSetChannel p))
  | 0x33 => some (take1 bs (ownerCommit p))
  | 0x34 => some (take1 bs (ownerAbandon p))
  | 0x35 => some (take1 bs (ownerGetDraft p))
  | 0x36 => some (take1 bs ownerReadBank)
  | 0x38 => some (take3 1 1 4 bs ownerSaveLibrary)
  | 0x39 => some (take1 bs ownerEraseSlot)
  | 0x3A => some (take0 bs ownerGetLibrary)
  | 0x40 => some (take1 bs ownerGetMemory)
  | 0x48 => some (take1 bs ownerReadMeters)
  | 0x49 => some (takeSetWatch bs)
  | 0x4A => some (take1 bs ownerSetMeterRelease)
  | 0x50 => some (take3 1 1 1 bs ownerSetSeverity)
  | 0x51 => some (take2 1 1 bs ownerSetRoute)
  | 0x52 => some (take1 bs ownerSetSnapshotLevel)
  | 0x53 => some (take5 [1, 1, 1, 2, 1] bs ownerSetLine)
  | 0x54 => some (take1 bs ownerClearLineLatch)
  | 0x55 => some (match splitFields [2] bs with
    | some [a] => some (ownerReadActive a)
    | _ => none)
  | 0x56 => some (take3 1 1 1 bs ownerAckAlarm)
  | 0x57 => some (match splitFields [4] bs with
    | some [a] => some (ownerReadLog a)
    | _ => none)
  | 0x58 => some (take1 bs ownerReadSnapshot)
  | 0x59 => some (take1 bs ownerReleaseSnapshot)
  | 0x60 => some (takeAddCue bs)
  | 0x61 => some (take2 1 2 bs ownerRemoveCue)
  | 0x62 => some (take1 bs ownerClearCues)
  | 0x63 => some (take2 1 2 bs ownerListCues)
  | 0x64 => some (take2 1 1 bs ownerCueEnable)
  | 0x65 => some (takeDriveLine bs)
  | 0x68 => some (take5 [1, 1, 1, 1, 1] bs ownerSetExpander)
  | 0x69 => some (take3 1 2 2 bs ownerRelayWrite)
  | 0x6A => some (take0 bs ownerGetExpander)
  | 0x70 => some (take0 bs ownerGetStatus)
  | 0x71 => some (take0 bs ownerResetPart)
  | _ => none

/-- What becomes of a held request (R183 steps 1 to 4). -/
def ownerOf (p : Port) (h : HeldRequest) : Owner :=
  if h.malformed then refuse .badFrame
  else match catalogue p h.code h.arguments with
    | none => refuse .badRequest
    | some none => refuse .badArgument
    | some (some f) => f

/-- The next PENDING port is served, if there is one (R183). -/
def grantRequest (s : State) : State :=
  match nextPort s with
  | some p => match portHolds s p with
    | some h => servePort p (ownerOf p h) s
    | none => s
  | none => s

/-- REQUEST_ARBITER_GRANT (R183). -/
def execRequestArbiterGrant (s : State) : Host.Outcome State Fault Refusal := whenRunning s (grantRequest s)

end Sys2Proof.Machine
end

