-- ==== Sys2Proof/Machine/RelayBus.lean ====
section
/-! DEFINITION. The steps of the relay bus (R171 to R177). A step of the bus completes only while the clock is not held low
(R172, R174), and behind the STOP condition of a transaction that a reset abandoned (R177). -/

namespace Sys2Proof.Machine

open Sys2Proof

/-- RELAY_TRANSACTION_START (R171): the idle master takes the oldest unstarted entry. -/
def execRelayTransactionStart (s : State) : Host.Outcome State Fault Refusal :=
  whenRunning s (match s.relay.bus, s.relay.unstarted with
    | .idle, e :: rest => startTransaction e rest s
    | _, _ => s)

/-- The transaction in flight, if the bus is in the step given and may complete it. -/
def flightIn (b : BusState) (s : State) : Option Flight := if busReady b s then s.relay.flight else none

/-- The lines, released and read before a START (R172, `startDrive`): a data line held low fails the transaction. -/
def startCondition (dataLow : Bool) (f : Flight) (s : State) : State :=
  if dataLow then enterRecover (settleFailure f (confirmedAfter f) s)
  else if f.inVerify then enterBus .readAddress s
  else enterBus .address s

/-- RELAY_START_CONDITION (R172). -/
def execRelayStartCondition (dataLow : Bool) (s : State) : Host.Outcome State Fault Refusal :=
  whenRunning s (match flightIn .start s with
    | some f => startCondition dataLow f s
    | none => s)

/-- A NACK ends the transaction with a STOP (R172, R173). -/
def nacked (f : Flight) (s : State) : State := enterBus .stop (settleFailure f (confirmedAfter f) s)

/-- RELAY_ADDRESS_BYTE (R172): the write address byte with its acknowledge. -/
def execRelayAddressByte (ack : Bool) (s : State) : Host.Outcome State Fault Refusal :=
  whenRunning s (match flightIn .address s with
    | some f => if ack then enterBus .writeData s else nacked f s
    | none => s)

/-- A data byte has been sent (R171). -/
def countByte (s : State) : State := onFlight (fun f => { f with bytes := f.bytes + 1 }) s

/-- A write data byte with its acknowledge (R172): the next byte, or the STOP; a transaction with no verify part ends
in success with its last byte acknowledged (R176). -/
def dataByte (ack : Bool) (f : Flight) (s : State) : State :=
  if !ack then nacked { f with bytes := f.bytes + 1 } (countByte s)
  else if f.bytes + 1 < partBytes f then enterBus .writeData (countByte s)
  else if f.verify then enterBus .stop (countByte s)
  else enterBus .stop (settleSuccess f (countByte s))

/-- RELAY_DATA_BYTE (R172). -/
def execRelayDataByte (ack : Bool) (s : State) : Host.Outcome State Fault Refusal :=
  whenRunning s (match flightIn .writeData s with
    | some f => dataByte ack f s
    | none => s)

/-- RELAY_READ_ADDRESS (R173): the address byte of the verify part with its acknowledge. -/
def execRelayReadAddress (ack : Bool) (s : State) : Host.Outcome State Fault Refusal :=
  whenRunning s (match flightIn .readAddress s with
    | some f => if ack then enterBus .readData s else nacked f s
    | none => s)

/-- The value read once byte `f.bytes` of the verify part has the value given: outputs 0..7 first (R172, R173). -/
def valueWith (f : Flight) (b : Byte) : Half :=
  if f.bytes = 0 then b.setWidth 16 else f.value ||| (b.setWidth 16 <<< 8)

/-- A byte of the verify part; after the last, the value read is compared with the captured image (R173, R176). -/
def readByte (b : Byte) (f : Flight) (s : State) : State :=
  let v := valueWith f b
  let s1 := onFlight (fun g => { g with bytes := g.bytes + 1, value := v }) s
  if f.bytes + 1 < partBytes f then enterBus .readData s1
  else if v = f.image then enterBus .stop (settleSuccess f s1)
  else enterBus .stop (settleFailure f (fun _ => some v) s1)

/-- RELAY_READ_BYTE (R173). -/
def execRelayReadByte (b : Byte) (s : State) : Host.Outcome State Fault Refusal :=
  whenRunning s (match flightIn .readData s with
    | some f => readByte b f s
    | none => s)

/-- A STOP has been given (R171, R172): the verify part follows an unsettled write part, and otherwise the bus is
IDLE and the transaction has left the queue. DESIGN CHOICE (log entry 44): the number of data bytes sent or read starts
again at 0 when the verify part begins. -/
def stopCondition (f : Flight) (s : State) : State :=
  if f.settled then enterIdle s
  else enterBus .start (onFlight (fun g => { g with inVerify := true, bytes := 0 }) s)

/-- The STOP condition of a transaction that a reset abandoned has been given, and the master releases both lines
(R177); it waits while the clock is held low. -/
def abandonedStop (s : State) : State :=
  if s.relay.clockHeld then s else onRelay (fun r => { r with abandoning := false }) s

/-- RELAY_STOP_CONDITION (R171, R172, R177): the STOP of the transaction that a reset abandoned, while it is to be given,
and otherwise that of the transaction in flight. -/
def execRelayStopCondition (s : State) : Host.Outcome State Fault Refusal :=
  whenRunning s (if s.relay.abandoning then abandonedStop s else
    match flightIn .stop s with
    | some f => stopCondition f s
    | none => s)

/-- A recovery pulse has been given, and the data line read (R175). DESIGN CHOICE (log entry 38): each pulse is a bus step
of its own, so that the stretch count starts again at 0 with every pulse. -/
def recoveryPulse (dataHigh : Bool) (s : State) : State :=
  let s1 := onRelay (fun r => { r with pulses := r.pulses + 1 }) s
  if dataHigh then enterBus .stop (onRelay (fun r => { r with lastRecovery := .cleared }) s1)
  else if Config.recoveryPulses ≤ s1.relay.pulses then giveUp s1
  else enterBus .recover s1

/-- RECOVERY_PULSE (R175). -/
def execRecoveryPulse (dataHigh : Bool) (s : State) : Host.Outcome State Fault Refusal :=
  whenRunning s (match flightIn .recover s with
    | some _ => recoveryPulse dataHigh s
    | none => s)

end Sys2Proof.Machine
end

