-- ==== Sys2Proof/Machine/Reports.lean ====
section
/-! DEFINITION. The reports between blocks as their receivers take them: causes, alarms, holds, advances, load outcomes (R6,
R138, R139, R140, R156, R163). -/

namespace Sys2Proof.Machine

open Sys2Proof

/-- CAUSE_ADDITION (R6): the oldest addition on its way of the identity. -/
def execCauseAddition (id : AlarmId) (s : State) : Host.Outcome State Fault Refusal :=
  whenRunning s (match takeFirst (fun m => m.add && m.id = id) s.mail.causes with
    | some (m, rest) => takeAddition m { s with mail := { s.mail with causes := rest } }
    | none => s)

/-- CAUSE_REMOVAL (R6): the oldest removal on its way of the identity. -/
def execCauseRemoval (id : AlarmId) (s : State) : Host.Outcome State Fault Refusal :=
  whenRunning s (match takeFirst (fun m => !m.add && m.id = id) s.mail.causes with
    | some (m, rest) => takeRemoval m { s with mail := { s.mail with causes := rest } }
    | none => s)

/-- ALARM_RAISE (R138). -/
def execAlarmRaise (id : AlarmId) (s : State) : Host.Outcome State Fault Refusal :=
  whenRunning s (match takeReport id true s.mail.alarms with
    | some (r, rest) => takeRaise r { s with mail := { s.mail with alarms := rest } }
    | none => s)

/-- ALARM_ABSENCE (R140). -/
def execAlarmAbsence (id : AlarmId) (s : State) : Host.Outcome State Fault Refusal :=
  whenRunning s (match takeReport id false s.mail.alarms with
    | some (r, rest) => takeAbsence r.id { s with mail := { s.mail with alarms := rest } }
    | none => s)

/-- CUE_HOLD (R139): the Cue Scheduler clears the screen's cue enable. -/
def execCueHold (n : Fin 8) (s : State) : Host.Outcome State Fault Refusal :=
  whenRunning s (match takeFirst (fun h => h.screen = n) s.mail.holds with
    | some (_, rest) =>
      onSchedule n (fun r => { r with enable := false }) { s with mail := { s.mail with holds := rest } }
    | none => s)

/-- POSITION_ADVANCE (R156): the Cue Scheduler takes the screen's oldest advance, which has not arrived while one of the
screen's own cue events, or a hold that such an event has sent, is on its way (R162). -/
def execPositionAdvance (n : Fin 8) (s : State) : Host.Outcome State Fault Refusal :=
  whenRunning s (if eventsComing n s then s else
    match takeFirst (fun a => a.screen = n) s.mail.advances with
    | some (a, rest) => takeAdvance a { s with mail := { s.mail with advances := rest } }
    | none => s)

/-- LOAD_OUTCOME_REPORT (R163). -/
def execLoadOutcomeReport (n : Fin 8) (s : State) : Host.Outcome State Fault Refusal :=
  whenRunning s (match takeFirst (fun o => o.screen = n) s.mail.outcomes with
    | some (o, rest) => takeOutcome o { s with mail := { s.mail with outcomes := rest } }
    | none => s)

end Sys2Proof.Machine
end

