-- ==== Sys2Proof/Machine/Dispatch.lean ====
section
/-! DEFINITION. The effect of each command: one arm per constructor of Instr, each one direct call of its meaning. -/

namespace Sys2Proof.Machine

open Sys2Proof

def exec (i : Instr) (s : State) : Host.Outcome State Fault Refusal :=
  match i with
  | .powerOnReset => Sys2Proof.Machine.execPowerOnReset s
  | .lineReset => Sys2Proof.Machine.execLineReset s
  | .resetLineRelease lowA lowB lowC => Sys2Proof.Machine.execResetLineRelease lowA lowB lowC s
  | .housePeriodBoundary backup clockLow => Sys2Proof.Machine.execHousePeriodBoundary backup clockLow s
  | .acquisitionTimeout n => Sys2Proof.Machine.execAcquisitionTimeout n s
  | .offQuietTimeout n => Sys2Proof.Machine.execOffQuietTimeout n s
  | .draftExpiry n => Sys2Proof.Machine.execDraftExpiry n s
  | .pulseRelease line => Sys2Proof.Machine.execPulseRelease line s
  | .stretchTimeout => Sys2Proof.Machine.execStretchTimeout s
  | .clockHoldEnd => Sys2Proof.Machine.execClockHoldEnd s
  | .prechargeDone => Sys2Proof.Machine.execPrechargeDone s
  | .initRefreshDone => Sys2Proof.Machine.execInitRefreshDone s
  | .modeSetDone => Sys2Proof.Machine.execModeSetDone s
  | .refreshIntervalExpiry => Sys2Proof.Machine.execRefreshIntervalExpiry s
  | .memoryBusGrant => Sys2Proof.Machine.execMemoryBusGrant s
  | .refreshComplete => Sys2Proof.Machine.execRefreshComplete s
  | .ringTransferComplete => Sys2Proof.Machine.execRingTransferComplete s
  | .libraryBurstComplete requestFirst => Sys2Proof.Machine.execLibraryBurstComplete requestFirst s
  | .libraryEntryStart => Sys2Proof.Machine.execLibraryEntryStart s
  | .syncWordFound n bytes => Sys2Proof.Machine.execSyncWordFound n bytes s
  | .packetArrival n rest => Sys2Proof.Machine.execPacketArrival n rest s
  | .linkStateReport n => Sys2Proof.Machine.execLinkStateReport n s
  | .periodStart => Sys2Proof.Machine.execPeriodStart s
  | .linkLoss n => Sys2Proof.Machine.execLinkLoss n s
  | .periodEnd => Sys2Proof.Machine.execPeriodEnd s
  | .sectionStageComplete c => Sys2Proof.Machine.execSectionStageComplete c s
  | .causeAddition id => Sys2Proof.Machine.execCauseAddition id s
  | .causeRemoval id => Sys2Proof.Machine.execCauseRemoval id s
  | .alarmRaise id => Sys2Proof.Machine.execAlarmRaise id s
  | .alarmAbsence id => Sys2Proof.Machine.execAlarmAbsence id s
  | .cueHold n => Sys2Proof.Machine.execCueHold n s
  | .positionAdvance n => Sys2Proof.Machine.execPositionAdvance n s
  | .loadOutcomeReport n => Sys2Proof.Machine.execLoadOutcomeReport n s
  | .relayTransactionStart => Sys2Proof.Machine.execRelayTransactionStart s
  | .relayStartCondition dataLow => Sys2Proof.Machine.execRelayStartCondition dataLow s
  | .relayAddressByte ack => Sys2Proof.Machine.execRelayAddressByte ack s
  | .relayDataByte ack => Sys2Proof.Machine.execRelayDataByte ack s
  | .relayReadAddress ack => Sys2Proof.Machine.execRelayReadAddress ack s
  | .relayReadByte value => Sys2Proof.Machine.execRelayReadByte value s
  | .relayStopCondition => Sys2Proof.Machine.execRelayStopCondition s
  | .recoveryPulse dataHigh => Sys2Proof.Machine.execRecoveryPulse dataHigh s
  | .requestFrame p bytes => Sys2Proof.Machine.execRequestFrame p bytes s
  | .readFrame p => Sys2Proof.Machine.execReadFrame p s
  | .readFrameEnd p clocked => Sys2Proof.Machine.execReadFrameEnd p clocked s
  | .requestArbiterGrant => Sys2Proof.Machine.execRequestArbiterGrant s
  | .screenOn p screen => Sys2Proof.Machine.execScreenOn p screen s
  | .screenOff p screen => Sys2Proof.Machine.execScreenOff p screen s
  | .forceFallback p screen => Sys2Proof.Machine.execForceFallback p screen s
  | .resume p screen => Sys2Proof.Machine.execResume p screen s
  | .getScreen p screen => Sys2Proof.Machine.execGetScreen p screen s
  | .getLink p screen => Sys2Proof.Machine.execGetLink p screen s
  | .setProfile p screen tag mode lt rt depth autoReturn => Sys2Proof.Machine.execSetProfile p screen tag mode lt rt depth autoReturn s
  | .setSource p screen channel selector link => Sys2Proof.Machine.execSetSource p screen channel selector link s
  | .getProfile p screen => Sys2Proof.Machine.execGetProfile p screen s
  | .setLevel p screen level length => Sys2Proof.Machine.execSetLevel p screen level length s
  | .mute p screen => Sys2Proof.Machine.execMute p screen s
  | .unmute p screen => Sys2Proof.Machine.execUnmute p screen s
  | .setFaderLaw p entries => Sys2Proof.Machine.execSetFaderLaw p entries s
  | .getFaderLaw p => Sys2Proof.Machine.execGetFaderLaw p s
  | .openDraft p screen origin slot => Sys2Proof.Machine.execOpenDraft p screen origin slot s
  | .setSection p screen channel sec inUse b0 b1 b2 a1 a2 => Sys2Proof.Machine.execSetSection p screen channel sec inUse b0 b1 b2 a1 a2 s
  | .setChannel p screen channel trim delay invert => Sys2Proof.Machine.execSetChannel p screen channel trim delay invert s
  | .commit p screen => Sys2Proof.Machine.execCommit p screen s
  | .abandon p screen => Sys2Proof.Machine.execAbandon p screen s
  | .getDraft p screen => Sys2Proof.Machine.execGetDraft p screen s
  | .readBank p screen => Sys2Proof.Machine.execReadBank p screen s
  | .saveLibrary p slot screen tag => Sys2Proof.Machine.execSaveLibrary p slot screen tag s
  | .eraseSlot p slot => Sys2Proof.Machine.execEraseSlot p slot s
  | .getLibrary p => Sys2Proof.Machine.execGetLibrary p s
  | .getMemory p screen => Sys2Proof.Machine.execGetMemory p screen s
  | .readMeters p screen => Sys2Proof.Machine.execReadMeters p screen s
  | .setWatch p screen meter kind threshold hold action => Sys2Proof.Machine.execSetWatch p screen meter kind threshold hold action s
  | .setMeterRelease p shift => Sys2Proof.Machine.execSetMeterRelease p shift s
  | .setSeverity p kind severity action => Sys2Proof.Machine.execSetSeverity p kind severity action s
  | .setRoute p severity mask => Sys2Proof.Machine.execSetRoute p severity mask s
  | .setSnapshotLevel p severity => Sys2Proof.Machine.execSetSnapshotLevel p severity s
  | .setLine p line mode threshold scopeMask follow => Sys2Proof.Machine.execSetLine p line mode threshold scopeMask follow s
  | .clearLineLatch p line => Sys2Proof.Machine.execClearLineLatch p line s
  | .readActive p start => Sys2Proof.Machine.execReadActive p start s
  | .ackAlarm p kind scope index => Sys2Proof.Machine.execAckAlarm p kind scope index s
  | .readLog p start => Sys2Proof.Machine.execReadLog p start s
  | .readSnapshot p screen => Sys2Proof.Machine.execReadSnapshot p screen s
  | .releaseSnapshot p screen => Sys2Proof.Machine.execReleaseSnapshot p screen s
  | .addCue p screen id position lateLimit catchUp action => Sys2Proof.Machine.execAddCue p screen id position lateLimit catchUp action s
  | .removeCue p screen id => Sys2Proof.Machine.execRemoveCue p screen id s
  | .clearCues p screen => Sys2Proof.Machine.execClearCues p screen s
  | .listCues p screen start => Sys2Proof.Machine.execListCues p screen start s
  | .cueEnable p screen value => Sys2Proof.Machine.execCueEnable p screen value s
  | .driveLine p line drive => Sys2Proof.Machine.execDriveLine p line drive s
  | .setExpander p expander present address width verify => Sys2Proof.Machine.execSetExpander p expander present address width verify s
  | .relayWrite p expander mask values => Sys2Proof.Machine.execRelayWrite p expander mask values s
  | .getExpander p => Sys2Proof.Machine.execGetExpander p s
  | .getStatus p => Sys2Proof.Machine.execGetStatus p s
  | .resetPart p => Sys2Proof.Machine.execResetPart p s

end Sys2Proof.Machine
end

