-- ==== Sys2Proof/WellFormed.lean ====
section
/-! DEFINITION. What a command must satisfy to be one the outside can send or the part can bring about: each argument fits the
width its frame gives it (R180, R191), an alarm identity is one of R134, and a packet's remaining bytes have a
length some channel count gives (R188). -/

namespace Sys2Proof

/-- Fits one byte. -/
def byteWide (x : Nat) : Bool := x < 256

/-- Fits 16 bits. -/
def halfWide (x : Nat) : Bool := x < 65536

/-- Fits 32 bits. -/
def wordWide (x : Nat) : Bool := x < 4294967296

/-- Fits 32 bits as a signed number. -/
def signedWide (x : Int) : Bool := -2147483648 ≤ x && x < 2147483648

def allBytes (xs : List Nat) : Bool := xs.all byteWide

/-- The drive has a mode of the table, and its value or length fits (R191). -/
def RawDrive.wf : RawDrive → Bool
  | .level v => byteWide v
  | .pulse l => halfWide l
  | .other _ => false

/-- The action has a kind of the table, and its arguments fit (R191). -/
def RawAction.wf : RawAction → Bool
  | .relay e m v => byteWide e && halfWide m && halfWide v
  | .line l d => byteWide l && d.wf
  | .fade level length => halfWide level && halfWide length
  | .format m => byteWide m
  | .eqSelect k => byteWide k
  | .mute | .unmute | .mark => true
  | .other _ => false

/-- The kinds of DEVICE scope (R134). -/
def AlarmKind.ofDevice : AlarmKind → Bool
  | .relayFault | .libraryCorrupt | .libraryDone => true
  | .silence | .over | .clip | .linkLost | .linkOverrun | .linkMismatch | .engineLate | .cueLate | .cueBlocked
  | .cueMark | .draftExpired => false

/-- How many indices a kind has (R134). -/
def AlarmKind.indices : AlarmKind → Nat
  | .silence | .over => 32
  | .clip => 16
  | .relayFault => 8
  | .libraryCorrupt | .libraryDone => 48
  | .linkLost | .linkOverrun | .linkMismatch | .engineLate | .cueLate | .cueBlocked | .cueMark | .draftExpired => 1

/-- An identity of the table of R134. -/
def AlarmId.wf (id : AlarmId) : Bool :=
  id.index < id.kind.indices && (match id.scope with
    | .screen _ => !id.kind.ofDevice
    | .device => id.kind.ofDevice)

/-- The kinds whose action may be FALLBACK, so that a cause can name them (R2, R136). -/
def AlarmId.canBeCause (id : AlarmId) : Bool :=
  id.wf && (match id.kind with
    | .silence | .over | .linkLost => true
    | _ => false)

/-- The condition kinds, which alone have absences (R134). -/
def AlarmId.isCondition (id : AlarmId) : Bool :=
  id.wf && (match id.kind with
    | .silence | .over | .linkLost | .relayFault => true
    | _ => false)

/-- A length the remaining bytes of a packet can have: content flags, 144 for each of 1..16 channels, check value
(R188). -/
def packetLength (len : Nat) : Bool := (List.range 16).any fun k => len = 3 + 144 * (k + 1)

/-- The command is well formed. -/
def Instr.wf : Instr → Bool
  | .packetArrival _ rest => packetLength rest.length
  | .causeAddition id | .causeRemoval id => id.canBeCause
  | .alarmRaise id => id.wf
  | .alarmAbsence id => id.isCondition
  | .requestFrame _ bytes => bytes.headD 0 ≠ 2
  | .screenOn _ n | .screenOff _ n | .forceFallback _ n | .resume _ n | .getScreen _ n | .getLink _ n
  | .getProfile _ n | .mute _ n | .unmute _ n | .commit _ n | .abandon _ n | .getDraft _ n | .readBank _ n
  | .eraseSlot _ n | .getMemory _ n | .readMeters _ n | .setMeterRelease _ n | .setSnapshotLevel _ n
  | .clearLineLatch _ n | .readSnapshot _ n | .releaseSnapshot _ n | .clearCues _ n => byteWide n
  | .setProfile _ n tag mode lt rt depth back => wordWide tag && allBytes [n, mode, lt, rt, depth, back]
  | .setSource _ n c sel link => allBytes [n, c, sel, link]
  | .setLevel _ n level length => byteWide n && halfWide level && halfWide length
  | .setFaderLaw _ entries => entries.length = 101 && entries.all wordWide
  | .openDraft _ n origin slot => allBytes [n, origin, slot]
  | .setSection _ n c k u b0 b1 b2 a1 a2 => allBytes [n, c, k, u] && [b0, b1, b2, a1, a2].all signedWide
  | .setChannel _ n c trim delay invert => allBytes [n, c, invert] && wordWide trim && wordWide delay
  | .saveLibrary _ slot n tag => allBytes [slot, n] && wordWide tag
  | .setWatch _ n meter kind threshold hold action =>
    allBytes [n, meter, kind, action] && wordWide threshold && halfWide hold
  | .setSeverity _ kind severity action => allBytes [kind, severity, action]
  | .setRoute _ severity mask => allBytes [severity, mask]
  | .setLine _ line mode threshold mask follow => allBytes [line, mode, threshold, follow] && halfWide mask
  | .readActive _ start => halfWide start
  | .ackAlarm _ kind scope index => allBytes [kind, scope, index]
  | .readLog _ start => wordWide start
  | .addCue _ n id position late catchUp a =>
    allBytes [n, catchUp] && halfWide id && wordWide position && halfWide late && a.wf
  | .removeCue _ n id => byteWide n && halfWide id
  | .listCues _ n start => byteWide n && halfWide start
  | .cueEnable _ n value => allBytes [n, value]
  | .driveLine _ line d => byteWide line && d.wf
  | .setExpander _ e present address width verify => allBytes [e, present, address, width, verify]
  | .relayWrite _ e mask values => byteWide e && halfWide mask && halfWide values
  | .powerOnReset | .lineReset | .resetLineRelease _ _ _ | .housePeriodBoundary _ _ | .acquisitionTimeout _
  | .offQuietTimeout _ | .draftExpiry _ | .pulseRelease _ | .stretchTimeout | .clockHoldEnd | .prechargeDone
  | .initRefreshDone | .modeSetDone | .refreshIntervalExpiry | .memoryBusGrant | .refreshComplete
  | .ringTransferComplete | .libraryBurstComplete _ | .libraryEntryStart | .syncWordFound _ _
  | .linkStateReport _ | .periodStart | .linkLoss _ | .periodEnd | .sectionStageComplete _ | .cueHold _
  | .positionAdvance _ | .loadOutcomeReport _ | .relayTransactionStart | .relayStartCondition _
  | .relayAddressByte _ | .relayDataByte _ | .relayReadAddress _ | .relayReadByte _ | .relayStopCondition
  | .recoveryPulse _ | .readFrame _ | .readFrameEnd _ _ | .requestArbiterGrant | .getFaderLaw _
  | .getLibrary _ | .getExpander _ | .getStatus _ | .resetPart _ => true

end Sys2Proof
end

