-- ==== Sys2Proof/Safety.lean ====
section
/-! DEFINITION. The terms the claims are stated in: a running part, answers at a port and their fields, what is left alone, and
the invariants of each block. -/

namespace Sys2Proof.Machine

open Sys2Proof

/-! ### Commands and answers -/

/-- The reset line is not held low, so that the part runs (R186). -/
abbrev Running (s : State) : Prop := s.system.lineHeld = false

/-- The Port Interface once a response has been placed in port `p`'s slot: Dropped adds its flag and is cleared, and
`p` is the last served port (R183). -/
def answeredPorts (p : Port) (rep : Reply) (q : PortInterface) : PortInterface :=
  { ports := update q.ports (portIndex p) fun r =>
      { r with
        slot := .ready
          { status := rep.status, clamped := rep.clamped, dropped := r.dropped, data := rep.data }
        dropped := false }
    lastServed := p }

/-- Every row of `w` but row `i` is as in `v`. -/
def OthersKept {α : Type} {n : Nat} (i : Fin n) (v w : Vector α n) : Prop := ∀ j : Fin n, j ≠ i → w[j] = v[j]

/-- The requests that only read (R12, R38, R57, R74, R86, R95, R115, R124, R142, R143, R145, R154, R178, R185), with
the port that sends them and their screen, if they name one. -/
def readingRequest : Instr → Option (Port × Option Nat)
  | .getScreen p n | .getLink p n | .getProfile p n | .readBank p n | .getMemory p n | .readMeters p n
  | .readSnapshot p n | .listCues p n _ => some (p, some n)
  | .getFaderLaw p | .getLibrary p | .readActive p _ | .readLog p _ | .getExpander p | .getStatus p => some (p, none)
  | _ => none

/-- The requests that name a screen, with their port and screen (sections 1.3 and 11.5). -/
def screenRequest : Instr → Option (Port × Nat)
  | .screenOn p n | .screenOff p n | .forceFallback p n | .resume p n | .getScreen p n | .getLink p n
  | .setProfile p n _ _ _ _ _ _ | .setSource p n _ _ _ | .getProfile p n | .setLevel p n _ _ | .mute p n
  | .unmute p n | .openDraft p n _ _ | .setSection p n _ _ _ _ _ _ _ _ | .setChannel p n _ _ _ _ | .commit p n
  | .abandon p n | .getDraft p n | .readBank p n | .saveLibrary p _ n _ | .getMemory p n | .readMeters p n
  | .setWatch p n _ _ _ _ _ | .readSnapshot p n | .releaseSnapshot p n | .addCue p n _ _ _ _ _ | .removeCue p n _
  | .clearCues p n | .listCues p n _ | .cueEnable p n _ => some (p, n)
  | _ => none

/-- The commands of the reset line and the supplies, which act while the line is held low (R186). -/
def actsOnHeldLine : Instr → Bool
  | .powerOnReset | .lineReset | .resetLineRelease _ _ _ => true
  | _ => false

/-- The alarm report a raise of an identity sends when its action is in the kind map (R134). -/
def raiseOf (id : AlarmId) : AlarmReport := { id := id, raise := true, action := .none, atOff := false }

/-- The report of an absence of an identity (R134). -/
def absenceOf (id : AlarmId) : AlarmReport := { id := id, raise := false, action := .none, atOff := false }

/-! ### The screen (R3, R14) -/

/-- The screen state follows from the cause set, the hold flag and the link state (R3). -/
def FollowsRule (c : ScreenContext) : Prop :=
  (c.state = .off → c.causes = [] ∧ c.hold = false)
  ∧ (c.state ≠ .off → (c.state = .fallback ↔ c.causes ≠ [] ∨ c.hold = true))
  ∧ (c.state = .playing → c.notedLink = .locked ∨ c.notedLink = .holdover)
  ∧ (c.state = .ready → c.notedLink = .down ∨ c.notedLink = .acquiring)

/-- Every screen follows the screen state rule. -/
def ScreensFollowRule (s : State) : Prop := ∀ n : Fin 8, FollowsRule s.screens[n]

/-- The accounting of one screen (R2, R14, R15, R19): an OFF screen holds nothing; for a screen in service the
blocks in its queue plus its outstanding periods less its owed blocks are 2, the outstanding count is at most 3
between steps, and while a block is owed the queue is empty; a period in service is one of a screen in service
with a demand outstanding; OFF pending waits for a period in service. -/
def AccountKept (s : State) (n : Fin 8) : Prop :=
  let c := s.screens[n]
  (c.state = .off → c.queue = [] ∧ c.outstanding = 0 ∧ c.owed = 0)
  ∧ (c.state ≠ .off →
      c.queue.length + c.outstanding = c.owed + 2 ∧ c.outstanding ≤ 3 ∧ (0 < c.owed → c.queue = []))
  ∧ (inService n s = true → c.state ≠ .off ∧ 0 < c.outstanding)
  ∧ (c.offPending = true → inService n s = true)

def AccountsKept (s : State) : Prop := ∀ n : Fin 8, AccountKept s n

/-! ### Blocks (R2, R76) -/

/-- 48 samples of the range of the output ports (R2, R76). -/
def OutputSamples (xs : Samples) : Prop :=
  xs.length = 48 ∧ ∀ x ∈ xs, -8388608 ≤ x ∧ x ≤ 8388607

/-- A block an output port may send. -/
def OutputBlock (b : Block) : Prop := ∀ c : Fin 16, OutputSamples b[c]

/-- Every block queued or being sent, and the output of every channel that is done, is within the range of the
output ports; the backup ring holds at most 16 periods of 48 frames (R20). -/
def OutputsInRange (s : State) : Prop :=
  (∀ n : Fin 8, OutputBlock s.screens[n].sending ∧ ∀ b ∈ s.screens[n].queue, OutputBlock b)
  ∧ (∀ v, s.engine.service = some v →
      ∀ c : Fin 16, v.channels[c].stage = .done → OutputSamples v.channels[c].output)
  ∧ s.engine.backup.length ≤ 16 ∧ ∀ b ∈ s.engine.backup, b.length = 48

/-! ### Links (R21 to R31) -/

/-- What each link state says of the receiver record (R21, R24, R25, R28, R30, R31). -/
def LinkKept (off : Bool) (l : LinkRecord) : Prop :=
  l.quiet ≤ 100
  ∧ match l.state with
    | .down => l.queue = [] ∧ l.acquisition = 0 ∧ l.missed = 0 ∧ l.known = false
    | .acquiring => l.queue = [] ∧ 1 ≤ l.acquisition ∧ l.acquisition ≤ 7 ∧ l.missed = 0
    | .locked => l.queue.length ≤ (if off then 1 else 4) ∧ l.acquisition = 8 ∧ l.missed = 0
    | .holdover => l.queue = [] ∧ l.acquisition = 8 ∧ 1 ≤ l.missed ∧ l.missed ≤ 31

def LinksKept (s : State) : Prop := ∀ n : Fin 8, LinkKept (isOff n s) s.links[n]

/-! ### Gain (R68 to R72) -/

/-- A master level record within its ranges (R68); a ramp in flight has periods left to run (R71). -/
def LevelKept (m : MasterLevel) : Prop :=
  m.level ≤ 100 ∧ m.gain ≤ 1048576 ∧ m.factor ≤ 8
  ∧ ∀ r, m.ramp = some r → r.start ≤ 1048576 ∧ r.target ≤ 1048576 ∧ r.done < r.length ∧ r.length ≤ 60000

/-- The fader law never falls and stays within the gain codes (R69). -/
def LawKept (law : Vector Nat 101) : Prop :=
  (∀ k : Fin 101, law[k] ≤ 1048576) ∧ ∀ j k : Fin 101, j ≤ k → law[j] ≤ law[k]

def GainKept (s : State) : Prop := LawKept s.gain.law ∧ ∀ n : Fin 8, LevelKept s.gain.levels[n]

/-! ### Banks (R78, R83) -/

/-- A section's codes are within their range (R78). -/
def SectionInRange (f : Section) : Prop :=
  ∀ x ∈ [f.b0, f.b1, f.b2, f.a1, f.a2], -134217728 ≤ x ∧ x ≤ 134217727

/-- A channel record is within its ranges (R78). -/
def RecordInRange (r : ChannelRecord) : Prop :=
  r.trim ≤ 1048576 ∧ r.delay ≤ 12240 ∧ ∀ k : Fin 12, SectionInRange r.sections[k]

def BankInRange (b : Bank) : Prop := ∀ c : Fin 16, RecordInRange b[c]

/-- Every section in use satisfies |a2| < 2^24 and |a1| < 2^24 + a2 (R83). -/
def BankStable (b : Bank) : Prop :=
  ∀ (c : Fin 16) (k : Fin 12), b[c].sections[k].inUse = true →
    (b[c].sections[k].a2.natAbs : Int) < 16777216
      ∧ (b[c].sections[k].a1.natAbs : Int) < 16777216 + b[c].sections[k].a2

/-- A draft's content is present exactly when it is not LOADING, is within its ranges, and is stable once it is
COMMITTING (R79, R83, R92). -/
def DraftKept (d : Draft) : Prop :=
  (d.content.isSome = true ↔ d.state ≠ .loading)
  ∧ ∀ b, d.content = some b → BankInRange b ∧ (d.state = .committing → BankStable b)

/-- Every active bank is in range and stable, and every draft is as its state says. -/
def BanksKept (s : State) : Prop :=
  ∀ n : Fin 8, BankInRange s.bank.banks[n] ∧ BankStable s.bank.banks[n]
    ∧ ∀ d, s.bank.drafts[n] = some d → DraftKept d

/-- What waits for the next period start is marked (R2): a COMMITTING draft by the swap mark, a staged profile by the
profile mark or the FORMAT mark; and nothing waits on an OFF screen (R9). -/
def StagedKept (s : State) : Prop :=
  ∀ n : Fin 8,
    ((s.screens[n].swapMark = true) ↔ ∃ d, s.bank.drafts[n] = some d ∧ d.state = .committing)
    ∧ ((s.screens[n].profileMark = true ∨ s.screens[n].formatMark = true) ↔ s.decoder[n].staged.isSome = true)
    ∧ (s.screens[n].state = .off → s.screens[n].swapMark = false ∧ s.decoder[n].staged = none)

/-! ### The library (R87, R89) -/

/-- The entry is a load of slot `k`. -/
def loads (k : Fin 48) (e : LibraryEntry) : Bool := e.task = .load && e.slot = k

/-- The entry is a save into slot `k`. -/
def saves (k : Fin 48) (e : LibraryEntry) : Bool := isSave e && e.slot = k

/-- The library queue holds at most 4 entries; a slot's pending count is its loads in the queue; a slot is WRITING
exactly while a save into it is in the queue; only the entry in progress can be a discarded load; a screen's draft
is LOADING exactly while one live load serves it (R87, R89, R90, R93). -/
def LibraryKept (s : State) : Prop :=
  s.library.queue.length ≤ 4
  ∧ (∀ k, s.library.progress = some k → s.library.queue ≠ [] ∧ k ≤ 32)
  ∧ (∀ k : Fin 48, s.library.slots[k].pending = s.library.queue.countP (loads k))
  ∧ (∀ k : Fin 48, s.library.queue.countP (saves k) = if s.library.slots[k].state = .writing then 1 else 0)
  ∧ (∀ e ∈ s.library.queue, e.discarded = true → e.task = .load ∧ s.library.progress.isSome = true)
  ∧ (∀ e ∈ s.library.queue.tail, e.discarded = false)
  ∧ (∀ n : Fin 8, s.library.queue.countP (servesDraft n) =
      if (s.bank.drafts[n].any fun d => d.state = .loading) = true then 1 else 0)

/-! ### The memory (R97, R99, R103, R108) -/

/-- A ring record within its ranges (R108). -/
def RingKept (r : RingRecord) : Prop :=
  r.writeIndex % 48 = 0 ∧ r.writeIndex ≤ 12240 ∧ r.zeros ≤ r.history ∧ r.history ≤ 256

/-- The controller record as R99 to R103 hold it, every ring record in range, and the SDRAM in canonical form. -/
def MemoryKept (s : State) : Prop :=
  s.memory.pending ≤ 8 ∧ s.memory.forced ≤ 65535
  ∧ (s.memory.state = .ready ↔ s.memory.step = .done)
  ∧ (s.memory.state = .ready ↔ s.memory.timerRunning = true)
  ∧ (s.memory.state = .initialising ↔ s.memory.bus = .init)
  ∧ (s.memory.state = .initialising → s.memory.pending = 0)
  ∧ (∀ k : Fin 128, RingKept s.memory.rings[k])
  ∧ Memory.wf s.memory.sdram = true

/-! ### Alarms (R137, R141, R143) -/

/-- The active set holds at most one entry per identity, no entry that is acknowledged with its condition absent, and
counts of 1..255; the log holds at most 64 entries with consecutive sequence numbers up to the next. -/
def AlarmsKept (s : State) : Prop :=
  (s.alarm.active.map fun e => e.id).Nodup
  ∧ (∀ e ∈ s.alarm.active, (e.acknowledged = true → e.present = true) ∧ 1 ≤ e.count ∧ e.count ≤ 255
      ∧ (e.present = true → isCondition e.id.kind = true))
  ∧ s.alarm.log.length ≤ 64
  ∧ ∀ (i : Nat) (e : LogEntry), s.alarm.log[i]? = some e →
      e.sequence = s.alarm.nextSequence - BitVec.ofNat 32 (s.alarm.log.length - i)

/-! ### Cues (R149) -/

/-- The pool holds at most 256 cues, in list order, and no screen has two cues of one id (R149). -/
def CuesKept (s : State) : Prop :=
  s.cue.pool.length ≤ 256
  ∧ s.cue.pool.Pairwise (fun a b => cueBefore a b = true)
  ∧ (s.cue.pool.map fun c => (c.screen, c.id)).Nodup

/-! ### Relays (R167 to R175) -/

/-- The relay queue holds at most one unstarted entry per expander, each of a present expander; a transaction is in
flight exactly while the bus is not IDLE, and behind the STOP of one that a reset abandoned it has not gone beyond its
START but to a recovery; an image keeps to its expander's outputs and is 0 on an absent one; no two present entries share
an address; the counts stay within their ranges. -/
def RelayKept (s : State) : Prop :=
  s.relay.unstarted.Nodup
  ∧ (∀ e ∈ s.relay.unstarted, s.relay.expanders[e].present = true)
  ∧ (s.relay.flight.isSome = true ↔ s.relay.bus ≠ .idle)
  ∧ (∀ e : Fin 8, (s.relay.expanders[e].wide = false → s.relay.expanders[e].desired.toNat ≤ 255)
      ∧ (s.relay.expanders[e].present = false → s.relay.expanders[e].desired = 0))
  ∧ (∀ e f : Fin 8, s.relay.expanders[e].present = true → s.relay.expanders[f].present = true →
      s.relay.expanders[e].address = s.relay.expanders[f].address → e = f)
  ∧ (s.relay.abandoning = true → s.relay.bus = .idle ∨ s.relay.bus = .start
      ∨ ∃ f, s.relay.flight = some f ∧ f.recovering = true)
  ∧ s.relay.stretch ≤ 26
  ∧ s.relay.pulses ≤ 9
  ∧ (s.relay.bus = .recover → s.relay.pulses ≤ 8)
  ∧ ∀ f, s.relay.flight = some f →
      (f.recovering = false → s.relay.pulses = 0)
      ∧ (f.recovering = true → s.relay.bus = .recover ∨ s.relay.bus = .stop)
      ∧ (f.recovering = true → f.settled = true)
      ∧ (s.relay.bus = .recover → f.recovering = true)

/-! ### Ports (R181, R184) -/

/-- How many data bytes a response of this status may carry: a refusal none, UNSTABLE its two (R184). -/
def dataAllowed (st : Status) (len : Nat) : Prop :=
  match st with
  | .ok | .accepted => True
  | .unstable => len = 2
  | _ => len = 0

/-- Dropped is set only while a request is held; no slot holds NO_RESPONSE; a refusal carries no data. -/
def PortsKept (s : State) : Prop :=
  ∀ i : Fin 3,
    (s.port.ports[i].dropped = true → ∃ h, s.port.ports[i].slot = .pending h)
    ∧ ∀ r, s.port.ports[i].slot = .ready r → r.status ≠ .noResponse ∧ dataAllowed r.status r.data.length

/-! ### Terms of the statements -/

/-- What every reset leaves in each block, as the chapters' tables give it (memory, library and last reset kind
apart, which the kinds of reset leave differently). The rows of the kind map stand in the order of R134, the routing
table's in the order NOTICE, WARNING, CRITICAL. -/
def ResetValues (s : State) : Prop :=
  s.system.housePeriods = 0
  ∧ (∀ n : Fin 8, s.screens[n].state = .off ∧ s.screens[n].offPending = false ∧ s.screens[n].causes = []
      ∧ s.screens[n].hold = false ∧ s.screens[n].queue = [] ∧ s.screens[n].outstanding = 0
      ∧ s.screens[n].owed = 0 ∧ s.screens[n].swapMark = false ∧ s.screens[n].profileMark = false
      ∧ s.screens[n].formatMark = false ∧ s.screens[n].notedLink = .down
      ∧ ∀ c : Fin 16, (s.screens[n].sending)[c] = List.replicate 48 0)
  ∧ (∀ n : Fin 8, s.links[n].state = .down ∧ s.links[n].queue = [] ∧ s.links[n].expected = 0
      ∧ s.links[n].acquisition = 0 ∧ s.links[n].missed = 0 ∧ s.links[n].quiet = 0 ∧ s.links[n].lastPosition = 0
      ∧ s.links[n].startPending = true ∧ s.links[n].known = false ∧ s.links[n].lossReported = false
      ∧ s.links[n].takenCount = 0 ∧ s.links[n].takenSilent = false
      ∧ s.links[n].reading = none ∧ s.links[n].search = [])
  ∧ (∀ n : Fin 8, s.decoder[n].profile.tag = 0 ∧ s.decoder[n].profile.mode = .discrete
      ∧ s.decoder[n].profile.lt = 0 ∧ s.decoder[n].profile.rt = 1 ∧ s.decoder[n].profile.depth = 4
      ∧ s.decoder[n].profile.autoReturn = true
      ∧ (∀ c : Fin 16, s.decoder[n].profile.table[c] = .link c)
      ∧ s.decoder[n].staged = none
      ∧ s.decoder[n].steering = { el := 0, er := 0, es := 0, ed := 0, lr := 0, fb := 0 })
  ∧ (∀ n : Fin 8, s.gain.levels[n] = { level := 70, gain := 262144, ramp := none, muted := false, factor := 8 })
  ∧ (∀ k : Fin 101, s.gain.law[k] = k.val * 262144 / 70)
  ∧ (∀ n : Fin 8, s.bank.drafts[n] = none ∧ ∀ c : Fin 16,
      (s.bank.banks[n][c]).trim = 262144 ∧ (s.bank.banks[n][c]).delay = 0 ∧ (s.bank.banks[n][c]).invert = false
      ∧ ∀ k : Fin 12, (s.bank.banks[n][c]).sections[k] =
          { inUse := false, b0 := 0, b1 := 0, b2 := 0, a1 := 0, a2 := 0 })
  ∧ s.library.queue = [] ∧ s.library.progress = none ∧ s.library.buffer = List.replicate 1028 0
  ∧ (∀ k : Fin 128, s.memory.rings[k] = { writeIndex := 0, history := 0, zeros := 0 })
  ∧ s.memory.ringList = [] ∧ s.memory.libraryRequest = none
  ∧ s.engine.service = none ∧ s.engine.lastServed = 7 ∧ s.engine.backup = []
  ∧ (∀ (n : Fin 8) (c : Fin 16),
      (∀ k : Fin 12, (s.engine.channels[n][c]).histories[k] = { x1 := 0, x2 := 0, y1 := 0, y2 := 0 })
      ∧ (s.engine.channels[n][c]).delayInUse = 0 ∧ (s.engine.channels[n][c]).target = none
      ∧ (s.engine.channels[n][c]).clip = false)
  ∧ (∀ (n : Fin 8) (i : Fin 32), s.meter.meters[n][i] = { peak := 0, value := 0, clips := 0 }
      ∧ s.meter.watches[n][i] =
          { kind := .none, threshold := 0, hold := 1, action := .none, run := 0, raised := false })
  ∧ s.meter.shift = 4
  ∧ s.alarm.active = [] ∧ s.alarm.log = [] ∧ s.alarm.nextSequence = 0 ∧ s.alarm.snapshotLevel = .critical
  ∧ (∀ n : Fin 8, s.alarm.snapshots[n] = none)
  ∧ (∀ k : Fin 14, s.alarm.kindMap[k] =
      (#v[⟨.warning, .none⟩, ⟨.warning, .none⟩, ⟨.notice, .none⟩, ⟨.critical, .fallback⟩, ⟨.warning, .none⟩,
        ⟨.critical, .none⟩, ⟨.warning, .none⟩, ⟨.warning, .none⟩, ⟨.warning, .none⟩, ⟨.notice, .none⟩,
        ⟨.notice, .none⟩, ⟨.warning, .none⟩, ⟨.critical, .none⟩, ⟨.notice, .none⟩] : Vector KindRecord 14)[k])
  ∧ s.alarm.routes[0] = 0#3 ∧ s.alarm.routes[1] = 7#3 ∧ s.alarm.routes[2] = 7#3
  ∧ (∀ i : Fin 4, s.alarm.lines[i] =
      { mode := .off, threshold := .critical, scopes := 0, follow := false, latch := false })
  ∧ s.cue.pool = []
  ∧ (∀ n : Fin 8, s.cue.schedules[n] = { enable := false, lastEnd := none })
  ∧ (∀ i : Fin 8, s.cue.lines[i] = { pulse := false, level := false, remaining := 0 })
  ∧ (∀ e : Fin 8, s.relay.expanders[e] =
      { present := false, address := 8, wide := false, verify := false, desired := 0, confirmed := none
        state := .unknown })
  ∧ s.relay.unstarted = [] ∧ s.relay.bus = .idle ∧ s.relay.flight = none ∧ s.relay.stretch = 0
  ∧ s.relay.pulses = 0 ∧ s.relay.lastRecovery = .none
  ∧ s.mail.links = [] ∧ s.mail.alarms = [] ∧ s.mail.causes = [] ∧ s.mail.holds = [] ∧ s.mail.advances = []
  ∧ s.mail.outcomes = []

/-- The controller and the directory after a full reset (R87, R99), and empty port records (R179). -/
def FullResetValues (s : State) : Prop :=
  ResetValues s
  ∧ s.memory.state = .initialising ∧ s.memory.step = .wait ∧ s.memory.pending = 0 ∧ s.memory.forced = 0
  ∧ s.memory.bus = .init ∧ s.memory.timerRunning = false
  ∧ (∀ k : Fin 48, s.library.slots[k] = { state := .empty, pending := 0, tag := 0, check := 0 })
  ∧ s.port.lastServed = .C
  ∧ ∀ i : Fin 3, s.port.ports[i] = { slot := .empty, dropped := false, frame := none, deaf := false }

/-- A reset abandons the transaction in flight and gives a STOP condition on the bus (R177); one already being given goes
on, and with neither both lines are released. -/
def FlightAbandoned (before after : RelayMaster) : Prop :=
  after.flight = none ∧ after.bus = .idle
  ∧ ∀ dataLow, (before.flight ≠ none → relayDrive dataLow after = [.stop])
    ∧ (before.flight = none → relayDrive dataLow after = relayDrive dataLow before)

/-- What the screen state rule makes of a context whose causes, hold flag or noted link have changed (R3, R4): entry
into FALLBACK sets the hold flag when the auto-return flag is clear. -/
def Settled (autoReturn : Bool) (c d : ScreenContext) : Prop :=
  d = { c with state := d.state, hold := d.hold }
  ∧ (c.state = .off → d = c)
  ∧ (c.state ≠ .off → (c.causes ≠ [] ∨ c.hold = true) → d.state = .fallback
      ∧ d.hold = (c.hold || (decide (c.state ≠ .fallback) && !autoReturn)))
  ∧ (c.state ≠ .off → c.causes = [] → c.hold = false → d.hold = false
      ∧ d.state = if c.notedLink = .locked ∨ c.notedLink = .holdover then .playing else .ready)

/-- The screen will not reach the overflow rule at the next demand (R19). -/
def NoOverflow (s : State) (n : Fin 8) : Prop := s.screens[n].state = .off ∨ s.screens[n].outstanding < 3

/-- A packet is good on screen `n`: its check value agrees and its tag is the expected one (R23). -/
def GoodPacket (n : Fin 8) (fields : Vector Byte 6) (rest : List Byte) (s : State) : Prop :=
  s.links[n].reading = some fields ∧ rest.length = remainingLength fields
  ∧ (crc16 (coveredBytes fields rest)).toNat = carriedCheck rest
  ∧ fields[0].toNat = s.decoder[n].profile.tag

/-! ### Codes of the catalogue (R190, R191) -/

def severityCode : Severity → Nat
  | .notice => 1
  | .warning => 2
  | .critical => 3

def actionCode : AlarmAction → Nat
  | .none => 0
  | .fallback => 1
  | .holdCues => 2

def watchKindCode : WatchKind → Nat
  | .none => 0
  | .silence => 1
  | .over => 2

def lineModeCode : LineMode → Nat
  | .off => 0
  | .severity => 1
  | .follow => 2

def alarmKindCode : AlarmKind → Nat
  | .silence => 1 | .over => 2 | .clip => 3 | .linkLost => 4 | .linkOverrun => 5 | .linkMismatch => 6
  | .engineLate => 7 | .cueLate => 8 | .cueBlocked => 9 | .cueMark => 10 | .draftExpired => 11
  | .relayFault => 12 | .libraryCorrupt => 13 | .libraryDone => 14

/-- The actions a record of the kind map may hold: FALLBACK for LINK_LOST alone, HOLD_CUES for LINK_LOST and the events
of screen scope (R136). -/
def MapActionAllowed (k : AlarmKind) (a : AlarmAction) : Prop :=
  (a = .fallback → k = .linkLost)
  ∧ (a = .holdCues → k ≠ .silence ∧ k ≠ .over ∧ k ≠ .relayFault ∧ k ≠ .libraryCorrupt ∧ k ≠ .libraryDone)

/-- The bytes of a cue line's drive as a master sends them (R191). -/
def driveFrame : RawDrive → List Byte
  | .level v => byteOf 0 ++ byteOf v
  | .pulse l => byteOf 1 ++ halfOf l
  | .other m => byteOf m

/-- The bytes of a cue action as a master sends them (R191). -/
def actionFrame : RawAction → List Byte
  | .relay e m v => byteOf 1 ++ byteOf e ++ halfOf m ++ halfOf v
  | .line l d => byteOf 2 ++ byteOf l ++ driveFrame d
  | .fade level length => byteOf 3 ++ halfOf level ++ halfOf length
  | .mute => byteOf 4
  | .unmute => byteOf 5
  | .format m => byteOf 6 ++ byteOf m
  | .eqSelect k => byteOf 7 ++ byteOf k
  | .mark => byteOf 8
  | .other k => byteOf k

/-- A signed 32-bit argument as a master sends it (R180). -/
def signedFrame (x : Int) : List Byte := wordOf (BitVec.ofInt 32 x).toNat

/-- The requests of the catalogue: the port that sends one, its code and its argument bytes (section 11.5, R191). -/
def frameOf : Instr → Option (Port × Byte × List Byte)
  | .screenOn p n => some (p, 0x10, byteOf n)
  | .screenOff p n => some (p, 0x11, byteOf n)
  | .forceFallback p n => some (p, 0x12, byteOf n)
  | .resume p n => some (p, 0x13, byteOf n)
  | .getScreen p n => some (p, 0x14, byteOf n)
  | .getLink p n => some (p, 0x18, byteOf n)
  | .setProfile p n tag mode lt rt depth back =>
    some (p, 0x20, byteOf n ++ wordOf tag ++ byteOf mode ++ byteOf lt ++ byteOf rt ++ byteOf depth ++ byteOf back)
  | .setSource p n c sel link => some (p, 0x21, byteOf n ++ byteOf c ++ byteOf sel ++ byteOf link)
  | .getProfile p n => some (p, 0x22, byteOf n)
  | .setLevel p n level length => some (p, 0x28, byteOf n ++ halfOf level ++ halfOf length)
  | .mute p n => some (p, 0x29, byteOf n)
  | .unmute p n => some (p, 0x2A, byteOf n)
  | .setFaderLaw p entries => some (p, 0x2B, entries.flatMap wordOf)
  | .getFaderLaw p => some (p, 0x2C, [])
  | .openDraft p n origin slot => some (p, 0x30, byteOf n ++ byteOf origin ++ byteOf slot)
  | .setSection p n c k u b0 b1 b2 a1 a2 =>
    some (p, 0x31, byteOf n ++ byteOf c ++ byteOf k ++ byteOf u
      ++ signedFrame b0 ++ signedFrame b1 ++ signedFrame b2 ++ signedFrame a1 ++ signedFrame a2)
  | .setChannel p n c trim delay invert =>
    some (p, 0x32, byteOf n ++ byteOf c ++ wordOf trim ++ wordOf delay ++ byteOf invert)
  | .commit p n => some (p, 0x33, byteOf n)
  | .abandon p n => some (p, 0x34, byteOf n)
  | .getDraft p n => some (p, 0x35, byteOf n)
  | .readBank p n => some (p, 0x36, byteOf n)
  | .saveLibrary p slot n tag => some (p, 0x38, byteOf slot ++ byteOf n ++ wordOf tag)
  | .eraseSlot p slot => some (p, 0x39, byteOf slot)
  | .getLibrary p => some (p, 0x3A, [])
  | .getMemory p n => some (p, 0x40, byteOf n)
  | .readMeters p n => some (p, 0x48, byteOf n)
  | .setWatch p n meter kind threshold hold action =>
    some (p, 0x49, byteOf n ++ byteOf meter ++ byteOf kind ++ wordOf threshold ++ halfOf hold ++ byteOf action)
  | .setMeterRelease p shift => some (p, 0x4A, byteOf shift)
  | .setSeverity p kind severity action => some (p, 0x50, byteOf kind ++ byteOf severity ++ byteOf action)
  | .setRoute p severity mask => some (p, 0x51, byteOf severity ++ byteOf mask)
  | .setSnapshotLevel p severity => some (p, 0x52, byteOf severity)
  | .setLine p line mode threshold mask follow =>
    some (p, 0x53, byteOf line ++ byteOf mode ++ byteOf threshold ++ halfOf mask ++ byteOf follow)
  | .clearLineLatch p line => some (p, 0x54, byteOf line)
  | .readActive p start => some (p, 0x55, halfOf start)
  | .ackAlarm p kind scope index => some (p, 0x56, byteOf kind ++ byteOf scope ++ byteOf index)
  | .readLog p start => some (p, 0x57, wordOf start)
  | .readSnapshot p n => some (p, 0x58, byteOf n)
  | .releaseSnapshot p n => some (p, 0x59, byteOf n)
  | .addCue p n id position late catchUp a =>
    some (p, 0x60, byteOf n ++ halfOf id ++ wordOf position ++ halfOf late ++ byteOf catchUp ++ actionFrame a)
  | .removeCue p n id => some (p, 0x61, byteOf n ++ halfOf id)
  | .clearCues p n => some (p, 0x62, byteOf n)
  | .listCues p n start => some (p, 0x63, byteOf n ++ halfOf start)
  | .cueEnable p n value => some (p, 0x64, byteOf n ++ byteOf value)
  | .driveLine p line d => some (p, 0x65, byteOf line ++ driveFrame d)
  | .setExpander p e present address width verify =>
    some (p, 0x68, byteOf e ++ byteOf present ++ byteOf address ++ byteOf width ++ byteOf verify)
  | .relayWrite p e mask values => some (p, 0x69, byteOf e ++ halfOf mask ++ halfOf values)
  | .getExpander p => some (p, 0x6A, [])
  | .getStatus p => some (p, 0x70, [])
  | .resetPart p => some (p, 0x71, [])
  | _ => none

/-! ### The search for a sync word (R22, R188) -/

/-- A sync word stands at place `i` of the bytes. -/
def SyncAt (bs : List Byte) (i : Nat) : Prop := bs[i]? = some 0x5E ∧ bs[i + 1]? = some 0xC3

/-- The first sync word of the bytes stands at place `i`. -/
def FirstSync (bs : List Byte) (i : Nat) : Prop := SyncAt bs i ∧ ∀ j, j < i → ¬SyncAt bs j

/-- What a search keeps of bytes that hold no whole header: all from the first sync word on, or else a last byte that
may be the first of a sync word; the others are passed over (R22). -/
def Unpassed (bs left : List Byte) : Prop :=
  (∀ i, FirstSync bs i → left = bs.drop i)
  ∧ ((∀ i, ¬SyncAt bs i) → left = if bs.getLast? = some 0x5E then [0x5E] else [])

/-! ### Loads of drafts (R80, R93) -/

/-- `e` is the library queue's entry that loads screen `n`'s draft, behind `before` and ahead of `after`. -/
def IsDraftsLoad (n : Fin 8) (s : State) (before : List LibraryEntry) (e : LibraryEntry) (after : List LibraryEntry) :
    Prop :=
  s.library.queue = before ++ e :: after ∧ e.task = .load ∧ e.screen = n ∧ e.discarded = false
  ∧ ∀ x ∈ before, ¬(x.task = .load ∧ x.screen = n ∧ x.discarded = false)

/-- A burst of the transfer in progress is on the memory bus. -/
def BurstLive (s : State) : Prop := ∃ b words, s.memory.bus = .burst b words true

/-- `u` is `s` once the load `e` of a removed draft has been dealt with (R93): one that has not started leaves the
queue and its slot's pending count; one in progress loses its waiting request, and is marked discarded while a burst
of it is on the bus, or leaves at once when none is. -/
def LoadDropped (before : List LibraryEntry) (e : LibraryEntry) (after : List LibraryEntry) (s u : State) : Prop :=
  let left := u.library.slots[e.slot] = { s.library.slots[e.slot] with pending := s.library.slots[e.slot].pending - 1 }
    ∧ OthersKept e.slot s.library.slots u.library.slots
  ((before ≠ [] ∨ s.library.progress = none) →
    u = { s with library := { s.library with slots := u.library.slots, queue := before ++ after } } ∧ left)
  ∧ (before = [] → s.library.progress ≠ none → ¬BurstLive s →
    u = { s with
      library := { s.library with slots := u.library.slots, queue := after, progress := none }
      memory := { s.memory with libraryRequest := none } } ∧ left)
  ∧ (before = [] → s.library.progress ≠ none → BurstLive s →
    u = { s with
      library := { s.library with queue := { e with discarded := true } :: after }
      memory := { s.memory with libraryRequest := none } })

/-- `q` entries of the library queue count against a new load of screen `n`'s draft: all of them, but for the draft's
own load that has not started (R80, R96). -/
def EntriesCounted (n : Fin 8) (s : State) (q : Nat) : Prop :=
  (s.library.queue.countP (servesDraft n) = 0 ∧ q = s.library.queue.length)
  ∨ s.library.queue.countP (servesDraft n) = 1 ∧ ∃ before e after, IsDraftsLoad n s before e after
      ∧ q = if before = [] ∧ s.library.progress ≠ none then after.length + 1 else before.length + after.length

/-! ### Channels of the period in service (R58, R109, R111) -/

/-- A channel of the period is done with the read values given: they have passed the stages after the ring (R65, R67,
R75, R76). -/
def Finished (v : Service) (c : Fin 16) (r : ChannelRecord) (post reads : Samples) (w : ChannelWork) : Prop :=
  w = { v.channels[c] with
    post := post, stage := .done
    output := (outputStage v.channels[c].fade r.invert (combinedGain r.trim v.gain v.factor) reads).1 }

/-- Sample `i` of a read at delay `d` lies in the memory, by the ring record after the write (R111). -/
def InMemory (ring : RingRecord) (d i : Nat) : Prop := 48 * ring.zeros < 48 + d - i ∧ 48 + d - i ≤ 48 * ring.history

/-- A channel's read is settled once its write is (R109, R111), `ring` being the record after the write: bypassed at
read delay 0, zeros when no sample lies in the memory, and otherwise one read transfer of the samples that do.
`clips` says whether a stage after the ring saturated (R77). -/
def ReadSettled (v : Service) (c : Fin 16) (r : ChannelRecord) (ring : RingRecord) (post : Samples) (w : ChannelWork)
    (joined : List RingTransfer) (clips : Bool) : Prop :=
  let d := v.channels[c].readDelay
  let clipsOn := fun reads : Samples =>
    (outputStage v.channels[c].fade r.invert (combinedGain r.trim v.gain v.factor) reads).2
  (d = 0 → joined = [] ∧ Finished v c r post post w ∧ clips = clipsOn post)
  ∧ (0 < d → (∀ i, i < 48 → ¬InMemory ring d i) →
      joined = [] ∧ Finished v c r post (List.replicate 48 0) w ∧ clips = clipsOn (List.replicate 48 0))
  ∧ ∀ first, 0 < d → d ≤ 12240 → first < 48 → InMemory ring d first → (∀ i, i < first → ¬InMemory ring d i) →
      w = { v.channels[c] with post := post, stage := .read first } ∧ clips = false
      ∧ ∃ position count, joined = [.read (ringOf v.screen c) position count]
        ∧ position < 12288 ∧ (position + 48 + d) % 12288 = (ring.writeIndex + first) % 12288
        ∧ ∀ i, i < 48 → (InMemory ring d i ↔ first ≤ i ∧ i < first + count)

/-! ### Watches (R126 to R129) -/

/-- A watch at a meter update: `held` says that the period's content leaves it untested (R128). -/
def WatchMoves (held : Bool) (m : Meter) (w w' : Watch) : Prop :=
  let condition := w.kind = .silence ∧ m.peak ≤ w.threshold ∨ w.kind = .over ∧ w.threshold ≤ m.value
  (w.kind = .none → w' = { w with run := 0, raised := false })
  ∧ (w.kind ≠ .none → held = true → w' = w)
  ∧ (w.kind ≠ .none → held = false → (condition ↔ w.raised = true) → w' = { w with run := 0 })
  ∧ (w.kind ≠ .none → held = false → ¬(condition ↔ w.raised = true) → w.run + 1 = w.hold →
      w' = { w with run := 0, raised := !w.raised })
  ∧ (w.kind ≠ .none → held = false → ¬(condition ↔ w.raised = true) → w.run + 1 ≠ w.hold →
      w' = { w with run := w.run + 1 })

/-! ### The matrix decoder (R53, R54, R56) -/

/-- What a DEC selector gives for the left and right samples of a period under the four gains (R54). -/
def MatrixOutput (kc ks kl kf : Int) (lt rt : Samples) (sel : Selector) (xs : Samples) : Prop :=
  (sel = .decL → xs = List.zipWith (fun l r => l - Int.fdiv (kc * (l + r)) 256 - Int.fdiv (ks * (l - r)) 256) lt rt)
  ∧ (sel = .decR → xs = List.zipWith (fun l r => r - Int.fdiv (kc * (l + r)) 256 + Int.fdiv (ks * (l - r)) 256) lt rt)
  ∧ (sel = .decC → xs = List.zipWith (fun l r => Int.fdiv ((l + r) * (128 - kl)) 256) lt rt)
  ∧ (sel = .decS → xs = List.zipWith (fun l r => Int.fdiv ((l - r) * (128 - kf)) 256) lt rt)

/-- The DEC selectors. -/
def IsDec (sel : Selector) : Prop := sel = .decL ∨ sel = .decR ∨ sel = .decC ∨ sel = .decS

/-- The steering state after the active decoder's update on the left and right samples of a period (R49 to R52). -/
def SteeringMoves (old : Steering) (lt rt : Samples) (new : Steering) : Prop :=
  let energyOf := fun xs : Samples => (xs.map fun x => x.natAbs * x.natAbs).sum / 65536
  let moved := fun e energy : Nat => e - e / 8 + energy / 8
  let target := fun a b : Nat => if a + b = 0 then 0 else Int.tdiv (64 * ((a : Int) - b)) ((a : Int) + b)
  let slewed := fun i t : Int => i + max (-4) (min 4 (t - i))
  new.el = moved old.el (energyOf lt) ∧ new.er = moved old.er (energyOf rt)
  ∧ new.es = moved old.es (energyOf (List.zipWith (· + ·) lt rt))
  ∧ new.ed = moved old.ed (energyOf (List.zipWith (· - ·) lt rt))
  ∧ new.lr = slewed old.lr (target new.el new.er) ∧ new.fb = slewed old.fb (target new.es new.ed)

/-- The steering state across staged changes: at rest when they change the decode mode or the matrix pair, and otherwise as
it was (R44). -/
def SteeringCarries (before after : DecoderRecord) : Prop :=
  after.steering =
    if after.profile.mode ≠ before.profile.mode ∨ after.profile.lt ≠ before.profile.lt
      ∨ after.profile.rt ≠ before.profile.rt
    then { el := 0, er := 0, es := 0, ed := 0, lr := 0, fb := 0 } else before.steering

/-- The section histories of a channel across a swap of its channel record: a section newly in use starts from rest, and
every other keeps its values (R62). -/
def HistoriesCarry (old new : ChannelRecord) (before after : ChannelState) : Prop :=
  ∀ k : Fin 12, after.histories[k] =
    if old.sections[k].inUse = false ∧ new.sections[k].inUse = true
    then { x1 := 0, x2 := 0, y1 := 0, y2 := 0 } else before.histories[k]

/-- The codes of the selectors, with the link channel byte that LINK alone reads (R191). -/
def SelectorCode (code link : Nat) (sel : Selector) : Prop :=
  code = 0 ∧ sel = .silent ∨ (∃ i : Fin 16, code = 1 ∧ link = i.val ∧ sel = .link i)
  ∨ code = 2 ∧ sel = .decL ∨ code = 3 ∧ sel = .decC ∨ code = 4 ∧ sel = .decR ∨ code = 5 ∧ sel = .decS

/-! ### The fields of responses (R57, R95, R115, R178, R189, R190, R192, log entry 17) -/

/-- A field of a response: how many bytes it takes, and its value. -/
abbrev Field := Nat × Nat

/-- Flags and levels are 1 when set or active. -/
def flagValue (b : Bool) : Nat := if b then 1 else 0

/-- The bytes of a field: its value to base 256, most significant byte first. -/
def fieldBytes (x : Field) : List Byte :=
  (List.range x.1).map fun k => BitVec.ofNat 8 (x.2 / 256 ^ (x.1 - 1 - k))

/-- A number in one byte, in two's complement. -/
def signedValue (v : Int) : Nat := (v % 256).toNat

/-- Fields in order, with nothing between them. -/
def laidOut (xs : List Field) : List Byte := xs.flatMap fieldBytes

/-- What may be absent: 01h and its fields, or 00h and as many bytes of 0. -/
def maybe {α : Type} (len : Nat) (f : α → List Field) : Option α → List Field
  | some a => (1, 1) :: f a
  | none => [(1, 0), (len, 0)]

def identityFields (id : AlarmId) : List Field :=
  [(1, alarmKindCode id.kind), (1, match id.scope with
    | .screen n => n.val
    | .device => 255), (1, id.index)]

def screenFields (c : ScreenContext) : List Field :=
  [(1, match c.state with
    | .off => 0
    | .ready => 1
    | .playing => 2
    | .fallback => 3), (1, flagValue c.offPending), (1, flagValue c.hold), (1, c.queue.length), (1, c.outstanding),
    (1, c.owed), (2, c.causes.length)] ++ c.causes.flatMap identityFields

/-- GET_LINK (R38). DESIGN CHOICE: the queue's count is a byte and then the list's 16-bit count (log entry 40). -/
def linkFields (l : LinkRecord) : List Field :=
  [(1, match l.state with
    | .down => 0
    | .acquiring => 1
    | .locked => 2
    | .holdover => 3), (1, l.queue.length), (2, l.queue.length)]
  ++ (l.queue.map fun q => (4, q.position.toNat))
  ++ [(4, l.expected.toNat), (1, l.acquisition), (1, l.missed), (1, l.quiet), (4, l.lastPosition.toNat),
    (1, flagValue l.startPending), (1, flagValue l.known), (1, flagValue l.lossReported), (1, l.takenCount),
    (1, flagValue l.takenSilent)]

def modeCode : DecodeMode → Nat
  | .discrete => 0
  | .matrix => 1

def profileFields (q : Profile) : List Field :=
  [(4, q.tag), (1, modeCode q.mode), (1, q.lt.val), (1, q.rt.val), (1, q.depth), (1, flagValue q.autoReturn)]
  ++ q.table.toList.flatMap fun sel => match sel with
    | .silent => [(1, 0), (1, 0)]
    | .link n => [(1, 1), (1, n.val)]
    | .decL => [(1, 2), (1, 0)]
    | .decC => [(1, 3), (1, 0)]
    | .decR => [(1, 4), (1, 0)]
    | .decS => [(1, 5), (1, 0)]

def decoderFields (d : DecoderRecord) : List Field :=
  let x := d.steering
  let k := steeringGains x d.profile.depth
  profileFields d.profile ++ maybe 41 profileFields d.staged
  ++ [(8, x.el), (8, x.er), (8, x.es), (8, x.ed)]
  ++ [x.lr, x.fb, k.kc, k.ks, k.kl, k.kf].map fun v => (1, signedValue v)

def gainFields (g : GainStage) : List Field :=
  (g.law.toList.map fun e => (4, e)) ++ g.levels.toList.flatMap fun m =>
    [(2, m.level), (4, m.gain)]
    ++ maybe 12 (fun r => [(4, r.start), (4, r.target), (2, r.length), (2, r.done)]) m.ramp
    ++ [(1, flagValue m.muted), (1, m.factor)]

def wordField (w : Word) : List Field := [(4, w.toNat)]

def slotFields (d : Slot) : List Field :=
  match d.state with
  | .empty => [(1, 0), (1, d.pending), (1, 0), (4, 0), (1, 0), (4, 0)]
  | .valid => [(1, 1), (1, d.pending), (1, 1), (4, d.tag.toNat), (1, 1), (4, d.check.toNat)]
  | .writing => [(1, 2), (1, d.pending), (1, 0), (4, 0), (1, 0), (4, 0)]

/-- A library queue entry, with the bursts completed if it is in progress. -/
def entryFields (progress : Option Nat) (e : LibraryEntry) : List Field :=
  (match e.task with
    | .load => [(1, 0), (1, e.slot.val), (1, e.screen.val), (1, 0), (4, 0)]
    | .save tag => [(1, 1), (1, e.slot.val), (1, e.screen.val), (1, 1), (4, tag.toNat)])
  ++ maybe 1 (fun k : Nat => [(1, k)]) progress

def libraryFields (l : LibraryEngine) : List Field :=
  l.slots.toList.flatMap slotFields ++ [(2, l.queue.length)]
  ++ (l.queue.take 1).flatMap (entryFields l.progress) ++ (l.queue.drop 1).flatMap (entryFields none)

/-- The place of an initialisation step: the wait, the precharge, eight refreshes, the mode set, done. -/
def stepCode : InitStep → Nat
  | .wait => 0
  | .precharge => 1
  | .refresh k => 1 + k
  | .modeSet => 10
  | .done => 11

/-- GET_MEMORY (R115). DESIGN CHOICE: an initialisation step on the bus carries its place (log entry 42). -/
def memoryFields (n : Fin 8) (m : MemoryController) : List Field :=
  [(1, match m.state with
    | .initialising => 0
    | .ready => 1), (1, stepCode m.step), (1, m.pending), (2, m.forced)]
  ++ (match m.bus with
    | .none => [(1, 0)]
    | .init => [(1, 1), (1, stepCode m.step)]
    | .refresh => [(1, 2)]
    | .ring (.write k _ _) _ => [(1, 3), (1, k.val), (1, 0)]
    | .ring (.read k _ _) _ => [(1, 3), (1, k.val), (1, 1)]
    | .burst b _ _ => [(1, 4), (1, b.slot.val), (1, b.number)])
  ++ [(1, m.ringList.length), (1, flagValue m.libraryRequest.isSome)]
  ++ (List.finRange 16).flatMap fun c =>
    let r := m.rings[ringOf n c]
    [(2, r.writeIndex), (2, r.history), (2, r.zeros)]

def meterFields (n : Fin 8) (u : MeterUnit) : List Field :=
  (u.meters[n].toList.flatMap fun m => [(4, m.peak), (4, m.value), (2, m.clips)])
  ++ (u.watches[n].toList.flatMap fun w =>
    [(1, watchKindCode w.kind), (4, w.threshold), (2, w.hold), (1, actionCode w.action), (2, w.run),
      (1, flagValue w.raised)])
  ++ [(1, u.shift)]

def activeFields (e : ActiveEntry) : List Field :=
  identityFields e.id ++
  [(1, severityCode e.severity), (1, actionCode e.action),
    (1, flagValue e.present + 2 * flagValue e.acknowledged + 4 * flagValue e.position.isSome), (1, e.count),
    (4, e.firstRaise.toNat), (4, e.latestRaise.toNat), (4, (e.position.getD 0).toNat)]

def alarmFields (start : Nat) (a : AlarmHandler) : List Field :=
  let shown := (a.active.drop start).take 32
  [(2, a.active.length), (1, flagValue (attention a .A)), (1, flagValue (attention a .B)),
    (1, flagValue (attention a .C))]
  ++ ((List.finRange 4).flatMap fun i => [(1, flagValue (lineLevel a i)), (1, flagValue a.lines[i].latch)])
  ++ [(1, shown.length)] ++ shown.flatMap activeFields

def logFields (e : LogEntry) : List Field :=
  [(4, e.sequence.toNat), (4, e.period.toNat)] ++ identityFields e.id
  ++ [(1, severityCode e.severity), (1, if e.raised then 1 else 2)]

def snapshotFields (x : Snapshot) : List Field :=
  identityFields x.id ++ [(4, x.period.toNat)] ++ maybe 4 wordField x.position
  ++ x.values.toList.map fun v => (4, v)

def cueActionFields : CueAction → List Field
  | .relay e m v => [(1, 1), (1, e.val), (2, m.toNat), (2, v.toNat)]
  | .line l (.level v) => [(1, 2), (1, l.val), (1, 0), (1, flagValue v)]
  | .line l (.pulse len) => [(1, 2), (1, l.val), (1, 1), (2, len)]
  | .fade level length => [(1, 3), (2, level), (2, length)]
  | .mute => [(1, 4)]
  | .unmute => [(1, 5)]
  | .format m => [(1, 6), (1, modeCode m)]
  | .eqSelect k => [(1, 7), (1, k.val)]
  | .mark => [(1, 8)]

def cueFields (c : Cue) : List Field :=
  [(1, c.screen.val), (2, c.id), (4, c.position.toNat)] ++ cueActionFields c.action
  ++ [(2, c.lateLimit), (1, flagValue c.catchUp)] ++ match c.state with
    | .armed => [(1, 0), (1, 0), (4, 0)]
    | .held since => [(1, 1), (1, 1), (4, since.toNat)]
    | .fired => [(1, 2), (1, 0), (4, 0)]
    | .skipped => [(1, 3), (1, 0), (4, 0)]
    | .late => [(1, 4), (1, 0), (4, 0)]
    | .failed => [(1, 5), (1, 0), (4, 0)]

def cueLineFields (l : CueLine) : List Field := [(1, flagValue l.pulse), (1, flagValue l.level), (2, l.remaining)]

def cueListFields (n : Fin 8) (start : Nat) (q : CueScheduler) : List Field :=
  let list := q.pool.filter fun c => c.screen = n
  let shown := (list.drop start).take 32
  [(2, list.length), (2, shown.length)] ++ shown.flatMap cueFields
  ++ [(1, flagValue q.schedules[n].enable)] ++ maybe 4 wordField q.schedules[n].lastEnd
  ++ [(2, (256 - q.pool.length : Nat))] ++ q.lines.toList.flatMap cueLineFields

def expanderFields (x : Expander) : List Field :=
  [(1, flagValue x.present), (1, x.address), (1, if x.wide then 16 else 8), (1, flagValue x.verify),
    (2, x.desired.toNat)] ++ maybe 2 (fun v : Half => [(2, v.toNat)]) x.confirmed
  ++ [(1, match x.state with
    | .unknown => 0
    | .ok => 1
    | .faulty => 2)]

/-- The verify part is due as the transaction captured it (log entry 36), and the data bytes are those of the part in
progress (log entry 44). -/
def flightFields (f : Flight) : List Field :=
  [(1, f.expander.val), (2, f.image.toNat), (1, flagValue f.verify), (1, f.bytes)]

def relayFields (r : RelayMaster) : List Field :=
  r.expanders.toList.flatMap expanderFields
  ++ [(1, match r.bus with
    | .idle => 0
    | .start => 1
    | .address => 2
    | .writeData => 3
    | .stop => 4
    | .readAddress => 5
    | .readData => 6
    | .recover => 7), (1, r.stretch), (1, r.pulses), (1, match r.lastRecovery with
    | .none => 0
    | .cleared => 1
    | .stuck => 2)]
  ++ maybe 5 flightFields r.flight
  ++ (match r.flight with
    | some f => [(2, r.unstarted.length + 1), (1, f.expander.val), (1, 1)]
    | none => [(2, r.unstarted.length)])
  ++ r.unstarted.flatMap fun e => [(1, e.val), (1, 0)]

/-- The header of a draft with its last touch and cue id (R189). -/
def draftFields (d : Draft) : List Field :=
  [(1, 1), (1, match d.holder with
    | .port .A _ => 1
    | .port .B _ => 2
    | .port .C _ => 3
    | .cue _ => 4), (1, match d.state with
    | .loading => 1
    | .editable => 2
    | .committing => 3)]
  ++ (match d.origin with
    | .active => [(1, 1), (1, 255)]
    | .empty => [(1, 2), (1, 255)]
    | .library k => [(1, 3), (1, k.val)])
  ++ [(1, 0)] ++ (match d.holder with
    | .port _ touch => [(4, touch.toNat), (2, 0)]
    | .cue id => [(4, 0), (2, id)])

/-- `words` are the sixteen channel records of a bank: in each, word 60 is the trim, 61 the delay, 62 the flags, 63 is 0, and
word 5k + j is code j of section k (R189). -/
def RecordsOf (b : Bank) (words : List Word) : Prop :=
  words.length = 1024
  ∧ ∀ c : Fin 16,
      let r := b[c]
      words[64 * c.val + 60]? = some (BitVec.ofNat 32 r.trim)
      ∧ words[64 * c.val + 61]? = some (BitVec.ofNat 32 r.delay)
      ∧ words[64 * c.val + 63]? = some 0
      ∧ (∃ w, words[64 * c.val + 62]? = some w ∧ ∀ i, (w.getLsbD i = true ↔
          i = 16 ∧ r.invert = true ∨ ∃ k : Fin 12, i = k.val ∧ r.sections[k].inUse = true))
      ∧ ∀ k : Fin 12,
          words[64 * c.val + 5 * k.val]? = some (BitVec.ofInt 32 r.sections[k].b0)
          ∧ words[64 * c.val + 5 * k.val + 1]? = some (BitVec.ofInt 32 r.sections[k].b1)
          ∧ words[64 * c.val + 5 * k.val + 2]? = some (BitVec.ofInt 32 r.sections[k].b2)
          ∧ words[64 * c.val + 5 * k.val + 3]? = some (BitVec.ofInt 32 r.sections[k].a1)
          ∧ words[64 * c.val + 5 * k.val + 4]? = some (BitVec.ofInt 32 r.sections[k].a2)

/-! ### Cues an advance reaches (R156 to R159) -/

/-- The advance passes the ARMED cue by: a START those before its first position, a JUMP_FORWARD those from the last
position end up to its first position. -/
def passes (a : Advance) (lastEnd : Option Word) (c : Cue) : Bool :=
  c.screen = a.screen && c.state = .armed && (match a.kind with
    | .start => c.position < a.first
    | .jumpForward => lastEnd.any fun e => e ≤ c.position && c.position < a.first
    | .contiguous | .jumpBackward => false)

/-- The cue after the kind step of an advance, if it is not taken there: SKIPPED when it is passed by, ARMED again when a
JUMP_BACKWARD goes back to it or before it. -/
def afterKind (a : Advance) (lastEnd : Option Word) (c : Cue) : Cue :=
  if passes a lastEnd c then { c with state := .skipped }
  else if c.screen = a.screen ∧ a.kind = .jumpBackward ∧ a.first ≤ c.position then { c with state := .armed }
  else c

/-- The kind step takes the cue: it is passed by with catch-up set. -/
def takenPassing (a : Advance) (lastEnd : Option Word) (c : Cue) : Bool := passes a lastEnd c && c.catchUp

/-- The range step takes the cue: ARMED after the kind step, its position among the 48. -/
def takenInRange (a : Advance) (lastEnd : Option Word) (c : Cue) : Bool :=
  !takenPassing a lastEnd c && c.screen = a.screen && (afterKind a lastEnd c).state = .armed
    && (c.position - a.first).toNat < 48

/-- The advance takes the cue (R155). -/
def taken (a : Advance) (lastEnd : Option Word) (c : Cue) : Bool :=
  takenPassing a lastEnd c || takenInRange a lastEnd c

/-- A cue event of the screen is on its way to the Alarm Handler, or a hold such an event has sent is on its way to the Cue
Scheduler (R139, R162). -/
def EventsComing (n : Fin 8) (s : State) : Prop :=
  (∃ r ∈ s.mail.alarms, r.raise = true ∧ r.id.scope = .screen n
    ∧ (r.id.kind = .cueLate ∨ r.id.kind = .cueBlocked ∨ r.id.kind = .cueMark))
  ∨ ∃ h ∈ s.mail.holds, h.screen = n ∧ h.ofCue = true

/-- The last position end of a screen is absent only until its next advance, which is a START (R156): the first that is on
its way, or with none on its way the next that its receiver will hand out. -/
def AdvancesKept (s : State) : Prop :=
  ∀ n : Fin 8, s.cue.schedules[n].lastEnd = none →
    (∀ a before after, s.mail.advances = before ++ a :: after → (∀ x ∈ before, x.screen ≠ n) → a.screen = n →
      a.kind = .start)
    ∧ ((∀ a ∈ s.mail.advances, a.screen ≠ n) → s.links[n].startPending = true)

/-! ### Cue actions (R152, R161) -/

/-- `act` is the cue action that the arguments of an ADD_CUE name, each in its range, a FADE clamped; `clamped` says that a
value was. -/
def ActionNamed (raw : RawAction) (act : CueAction) (clamped : Bool) : Prop :=
  match raw with
  | .relay e m v => clamped = false
      ∧ ∃ x : Fin 8, x.val = e ∧ act = .relay x (BitVec.ofNat 16 m) (BitVec.ofNat 16 v)
  | .line l (.level v) => clamped = false
      ∧ ∃ x : Fin 8, x.val = l ∧ (v = 0 ∧ act = .line x (.level false) ∨ v = 1 ∧ act = .line x (.level true))
  | .line l (.pulse k) => clamped = false ∧ k ≠ 0 ∧ ∃ x : Fin 8, x.val = l ∧ act = .line x (.pulse k)
  | .line _ (.other _) => False
  | .fade level length => clamped = decide (100 < level ∨ 60000 < length)
      ∧ act = .fade (min level 100) (min length 60000)
  | .mute => clamped = false ∧ act = .mute
  | .unmute => clamped = false ∧ act = .unmute
  | .format m => clamped = false ∧ (m = 0 ∧ act = .format .discrete ∨ m = 1 ∧ act = .format .matrix)
  | .eqSelect k => clamped = false ∧ ∃ x : Fin 48, x.val = k ∧ act = .eqSelect x
  | .mark => clamped = false ∧ act = .mark
  | .other _ => False

/-- A HELD cue that is released beyond its late limit at house period count `now` (R160). -/
def releasedLate (now : Word) (c : Cue) : Bool :=
  match c.state with
  | .held since => c.lateLimit ≠ 0 && c.lateLimit < (now - since).toNat
  | _ => false

/-! ### Events without their occasion (log entry 4) -/

/-- Nothing holds the relay bus up: no expander holds the clock low (R174), and no STOP of a transaction that a reset
abandoned is still to be given (R177). -/
abbrev LinesFree (r : RelayMaster) : Prop := r.clockHeld = false ∧ r.abandoning = false

/-- A bus step that is not the one at hand, or that is held up. -/
def NoBusStep (b : BusState) (r : RelayMaster) : Prop := r.bus ≠ b ∨ r.flight = none ∨ ¬LinesFree r

/-- What the event command stands for is not there to happen. -/
def NoOccasion (c : Instr) (s : State) : Prop :=
  match c with
  | .resetLineRelease _ _ _ => s.system.lineHeld = false
  | .acquisitionTimeout n => s.links[n].state ≠ .acquiring ∨ s.links[n].quiet ≠ 100
  | .offQuietTimeout n => s.screens[n].state ≠ .off ∨ s.links[n].quiet ≠ 100
      ∨ s.links[n].state = .down ∨ s.links[n].state = .acquiring
  | .linkLoss n => s.links[n].state ≠ .holdover ∨ s.links[n].missed < 32
  | .draftExpiry n => ∀ d p touch, s.bank.drafts[n] = some d → d.holder = .port p touch →
      d.state = .committing ∨ (s.system.housePeriods - touch).toNat < 30000
  | .pulseRelease i => s.cue.lines[i].pulse = false ∨ s.cue.lines[i].remaining ≠ 0
  | .stretchTimeout => s.relay.clockHeld = false ∨ s.relay.bus = .idle ∨ s.relay.stretch < 26
  | .clockHoldEnd => s.relay.clockHeld = false
  | .prechargeDone => s.memory.bus ≠ .init ∨ s.memory.step ≠ .precharge
  | .initRefreshDone => s.memory.bus ≠ .init ∨ ∀ k, s.memory.step ≠ .refresh k
  | .modeSetDone => s.memory.bus ≠ .init ∨ s.memory.step ≠ .modeSet
  | .refreshIntervalExpiry => s.memory.timerRunning = false
  | .memoryBusGrant => s.memory.state ≠ .ready ∨ s.memory.bus ≠ .none
      ∨ s.memory.pending = 0 ∧ s.memory.ringList = [] ∧ s.memory.libraryRequest = none
  | .refreshComplete => s.memory.bus ≠ .refresh
  | .ringTransferComplete => ∀ t live, s.memory.bus ≠ .ring t live
  | .libraryBurstComplete _ => ∀ b words live, s.memory.bus ≠ .burst b words live
  | .libraryEntryStart => s.library.queue = [] ∨ s.library.progress ≠ none
  | .syncWordFound n _ => s.links[n].reading ≠ none
  | .packetArrival n rest => ∀ fields, s.links[n].reading = some fields → rest.length ≠ remainingLength fields
  | .linkStateReport n => ∀ r ∈ s.mail.links, r.1 ≠ n
  | .periodStart => s.engine.service ≠ none ∨ ∀ n, waiting s n = false
  | .periodEnd => ∀ v, s.engine.service = some v → ∃ c : Fin 16, v.channels[c].stage ≠ .done
  | .sectionStageComplete c => ∀ v, s.engine.service = some v → v.channels[c].stage ≠ .sections
  | .causeAddition id => ∀ m ∈ s.mail.causes, m.add = false ∨ m.id ≠ id
  | .causeRemoval id => ∀ m ∈ s.mail.causes, m.add = true ∨ m.id ≠ id
  | .alarmRaise id => ∀ r ∈ s.mail.alarms, r.raise = false ∨ r.id ≠ id
  | .alarmAbsence id => ∀ r ∈ s.mail.alarms, r.raise = true ∨ r.id ≠ id
  | .cueHold n => ∀ h ∈ s.mail.holds, h.screen ≠ n
  | .positionAdvance n => (∀ a ∈ s.mail.advances, a.screen ≠ n) ∨ EventsComing n s
  | .loadOutcomeReport n => ∀ o ∈ s.mail.outcomes, o.screen ≠ n
  | .relayTransactionStart => s.relay.bus ≠ .idle ∨ s.relay.unstarted = []
  | .relayStartCondition _ => NoBusStep .start s.relay
  | .relayAddressByte _ => NoBusStep .address s.relay
  | .relayDataByte _ => NoBusStep .writeData s.relay
  | .relayReadAddress _ => NoBusStep .readAddress s.relay
  | .relayReadByte _ => NoBusStep .readData s.relay
  | .relayStopCondition => NoBusStep .stop s.relay ∧ (s.relay.abandoning = false ∨ s.relay.clockHeld = true)
  | .recoveryPulse _ => NoBusStep .recover s.relay
  | .readFrameEnd p _ => s.port.ports[portIndex p].frame = none ∧ s.port.ports[portIndex p].deaf = false
  | .requestArbiterGrant => ∀ q h, s.port.ports[portIndex q].slot ≠ .pending h
  | _ => False

end Sys2Proof.Machine
end

