-- ==== Sys2Proof/Certificates/Slice0/Obligations.lean ====
section
/-! DEFINITION. The statements about the part. -/

open Sys2Proof Sys2Proof.Machine

/-! ### The machine -/

/-- One step runs the command at the front of the queue on the state with the queue's rest. -/
def Obligations.StepTakesTheFrontCommand : Prop :=
  ∀ (c : Instr) (rest : List Instr) (s : State),
    step { s with pending := c :: rest } = exec c { s with pending := rest }

/-- No command faults or is refused, and none touches the queue of commands, which is the model's own (log entry 12). -/
def Sys2Proof.Machine.CommandsAnswerNext : Prop :=
  ∀ (c : Instr) (s : State), ∃ t, exec c s = .next t ∧ t.pending = s.pending

/-- An event command whose occasion is absent (nothing of its kind on its way, on a bus or in the engine, or a count not
yet due) answers the state unchanged: the model's choice (log entry 4). -/
def Sys2Proof.Machine.EventsAwaitTheirOccasion : Prop :=
  ∀ (c : Instr) (s : State), Running s → NoOccasion c s → exec c s = .next s

/-- R186: while the reset line is held low nothing acts but the line and the supplies. -/
def Sys2Proof.Machine.HeldLineStopsEveryCommand : Prop :=
  ∀ (c : Instr) (s : State), s.system.lineHeld = true → actsOnHeldLine c = false → exec c s = .next s

/-- No command faults or is refused, an event without its occasion standing still (log entry 4), and none touches the
queue of commands, which is the model's own (log entry 12): both are the model's choices. While the reset line is
held low no command but those of the line and the supplies does anything (R186). -/
def Obligations.EveryCommandCompletes : Prop :=
  CommandsAnswerNext ∧ EventsAwaitTheirOccasion ∧ HeldLineStopsEveryCommand

/-- R1: the house period count is 0 after any reset, rises by 1 modulo 2^32 at each house period boundary, and moves
at no other command. The arbiter's grant may serve a RESET_PART. -/
def Obligations.HouseCountRisesAtBoundaries : Prop :=
  (∀ s, ∃ t, exec .powerOnReset s = .next t ∧ t.system.housePeriods = 0)
  ∧ (∀ s, ∃ t, exec .lineReset s = .next t ∧ t.system.housePeriods = 0)
  ∧ (∀ p s, Running s → ∃ t, exec (.resetPart p) s = .next t ∧ t.system.housePeriods = 0)
  ∧ (∀ b low s, Running s → ∃ t, exec (.housePeriodBoundary b low) s = .next t
      ∧ t.system.housePeriods = s.system.housePeriods + 1)
  ∧ ∀ c s t, exec c s = .next t → (∀ b low, c ≠ .housePeriodBoundary b low) →
      t.system.housePeriods = s.system.housePeriods
      ∨ t.system.housePeriods = 0
        ∧ (c = .powerOnReset ∨ c = .lineReset ∨ (∃ p, c = .resetPart p) ∨ c = .requestArbiterGrant)

/-! ### Resets (R2, R20, R21, R39, R68, R78, R116, R125, R149, R167, R179, R185 to R187) -/

/-- The two full resets and RESET_PART leave their reset values, for every record, list and counter of the part; the
model's state after reset is one of them. Where the chapters give no value it is the model's: the transfer buffer
(log entries 3 and 30), reports on their way (9), the block being sent at RESET_PART (18), the noted link (13), the
tag and check value of an EMPTY slot (29), and the frames in progress at the ports (25, 37). A relay transaction in
flight is abandoned with a STOP condition on the bus (R177), which the model shows beside the IDLE bus record (39). -/
def Obligations.ResetsLeaveResetValues : Prop :=
  (FullResetValues State.reset ∧ State.reset.pending = [] ∧ State.reset.system.lastReset = .powerOn
    ∧ State.reset.relay.abandoning = false)
  ∧ (∀ s, ∃ t, exec .powerOnReset s = .next t ∧ FullResetValues t ∧ t.pending = s.pending
      ∧ t.system.lastReset = .powerOn ∧ FlightAbandoned s.relay t.relay)
  ∧ (∀ s, ∃ t, exec .lineReset s = .next t ∧ FullResetValues t ∧ t.pending = s.pending
      ∧ t.system.lastReset = .line ∧ t.system.lineHeld = true ∧ FlightAbandoned s.relay t.relay)
  ∧ ∀ p s, Running s → ∃ t, exec (.resetPart p) s = .next t ∧ ResetValues t ∧ t.pending = s.pending
      ∧ t.system.lastReset = .part ∧ FlightAbandoned s.relay t.relay

/-- R97, R102, R186: a line reset keeps every SDRAM word but those a write on the bus was writing, and each of those
holds its old value or the value being written; the release lets the part run and changes nothing but the ports,
which wait for the next fall of a chip select that is low. -/
def Obligations.LineResetKeepsTheSdram : Prop :=
  (∀ s, ∃ t, exec .lineReset s = .next t ∧ ∀ a : Nat,
      ((∀ w, (a, w) ∉ wordsInWriting s) → sdramWord t a = sdramWord s a)
      ∧ (sdramWord t a = sdramWord s a ∨ ∃ w, (a, w) ∈ wordsInWriting s ∧ sdramWord t a = w))
  ∧ ∀ a b c s, s.system.lineHeld = true → ∃ t, exec (.resetLineRelease a b c) s = .next t
      ∧ t = { s with system := { s.system with lineHeld := false }, port := t.port }
      ∧ t.port.lastServed = s.port.lastServed
      ∧ t.port.ports[0] = { s.port.ports[0] with deaf := a }
      ∧ t.port.ports[1] = { s.port.ports[1] with deaf := b }
      ∧ t.port.ports[2] = { s.port.ports[2] with deaf := c }

/-- R187, R102, R87: RESET_PART keeps the controller's state and refresh and the SDRAM, keeps each slot of the
directory but one being written, which it empties, and answers OK at the requesting port alone. The requests for the
bus are withdrawn and the rings reset. The operation on the bus stays there and completes: a refresh lowers the
pending count, and a ring transfer or a library burst frees the bus and does nothing else but, as a write, put its
words into the SDRAM (that it still writes them is DEDUCED, log entry 19). -/
def Obligations.ResetPartKeepsMemoryAndDirectory : Prop :=
  ∀ p s, Running s → ∃ t, exec (.resetPart p) s = .next t
    ∧ t.memory.state = s.memory.state ∧ t.memory.step = s.memory.step ∧ t.memory.pending = s.memory.pending
    ∧ t.memory.forced = s.memory.forced ∧ t.memory.timerRunning = s.memory.timerRunning
    ∧ (∀ a, sdramWord t a = sdramWord s a)
    ∧ t.memory.ringList = [] ∧ t.memory.libraryRequest = none
    ∧ (∀ k : Fin 128, t.memory.rings[k] = { writeIndex := 0, history := 0, zeros := 0 })
    ∧ (let freed := fun (u : State) => u = { t with memory := { t.memory with bus := .none, sdram := u.memory.sdram } }
      (s.memory.bus = .none ∨ s.memory.bus = .init → t.memory.bus = s.memory.bus)
      ∧ (s.memory.bus = .refresh → t.memory.bus = .refresh ∧ exec .refreshComplete t = .next
          { t with memory := { t.memory with bus := .none, pending := s.memory.pending - 1 } })
      ∧ (∀ k start vs live, s.memory.bus = .ring (.write k start vs) live → vs.length ≤ 12288 →
          t.memory.bus = .ring (.write k start vs) false
          ∧ ∃ u, exec .ringTransferComplete t = .next u ∧ freed u
            ∧ (∀ i (h : i < vs.length), sdramWord u (65536 + k.val * 12288 + (start + i) % 12288)
                = BitVec.ofInt 32 (vs[i]))
            ∧ ∀ a, (∀ i, i < vs.length → a ≠ 65536 + k.val * 12288 + (start + i) % 12288) →
                sdramWord u a = sdramWord s a)
      ∧ (∀ k start count live, s.memory.bus = .ring (.read k start count) live →
          t.memory.bus = .ring (.read k start count) false
          ∧ exec .ringTransferComplete t = .next { t with memory := { t.memory with bus := .none } })
      ∧ ∀ c words live first, s.memory.bus = .burst c words live →
          t.memory.bus = .burst c words false
          ∧ ∃ u, exec (.libraryBurstComplete first) t = .next u ∧ freed u
            ∧ (c.write = false → ∀ a, sdramWord u a = sdramWord s a)
            ∧ (c.write = true → (∀ i (h : i < words.length), sdramWord u (burstAddress c + i) = words[i])
                ∧ ∀ a, (a < burstAddress c ∨ burstAddress c + words.length ≤ a) → sdramWord u a = sdramWord s a))
    ∧ (∀ k : Fin 48, s.library.slots[k].state ≠ .writing →
        t.library.slots[k] = { s.library.slots[k] with pending := 0 })
    ∧ (∀ k : Fin 48, s.library.slots[k].state = .writing → t.library.slots[k].state = .empty)
    ∧ t.port.ports[portIndex p].slot = .ready { status := .ok, clamped := false, dropped := false, data := [] }
    ∧ ∀ q, q ≠ p → t.port.ports[portIndex q].slot = .empty ∧ t.port.ports[portIndex q].dropped = false

/-! ### Requests that only read -/

/-- R185: GET_STATUS is answered OK from any port in every state with its ten bytes, and changes nothing; and each
reset sets the last reset kind to its kind. -/
def Obligations.GetStatusReportsThePart : Prop :=
  (∀ s, ∃ t, exec .powerOnReset s = .next t ∧ t.system.lastReset = .powerOn)
  ∧ (∀ s, ∃ t, exec .lineReset s = .next t ∧ t.system.lastReset = .line)
  ∧ (∀ p s, Running s → ∃ t, exec (.resetPart p) s = .next t ∧ t.system.lastReset = .part)
  ∧ ∀ p s, Running s → ∃ b3 b2 b1 b0 mask : Byte,
    exec (.getStatus p) s = .next
      { s with
        port := answeredPorts p
          (answer .ok [0x08, 0x16, 0x01,
            match s.system.lastReset with
              | .powerOn => 1
              | .line => 2
              | .part => 3,
            b3, b2, b1, b0,
            match s.memory.state with
              | .initialising => 0
              | .ready => 1,
            mask]) s.port }
    ∧ b3 ++ b2 ++ b1 ++ b0 = s.system.housePeriods
    ∧ ∀ n : Fin 8, (mask.getLsbD n.val = true ↔ s.screens[n].state ≠ .off)

/-- The reading requests are answered OK in every state and change nothing but their port (R12, R38, R57, R74, R86,
R95, R115, R124, R142, R143, R145, R154, R178, R185). -/
def Sys2Proof.Machine.ReadingKeepsTheState : Prop :=
  ∀ c s p n, Running s → readingRequest c = some (p, n) → (∀ k, n = some k → k < 8) →
    ∃ data, exec c s = .next { s with port := answeredPorts p (answer .ok data) s.port }

/-- Sections 1.3 and 11.5: a request that names a screen outside 0..7 is refused with BAD_ARGUMENT, and nothing
changes. -/
def Obligations.ScreenOutsideRangeIsRefused : Prop :=
  ∀ c s p n, Running s → screenRequest c = some (p, n) → 8 ≤ n →
    exec c s = .next { s with port := answeredPorts p (refusal .badArgument) s.port }

/-- R86, R189: READ_BANK answers 4,096 bytes, the words of the sixteen channel records most significant byte first. -/
def Sys2Proof.Machine.ReadBankAnswersTheRecords : Prop :=
  ∀ p (n : Fin 8) s, Running s → ∃ words : List Word,
    exec (.readBank p n.val) s = .next
      { s with port := answeredPorts p (answer .ok (laidOut (words.flatMap wordField))) s.port }
    ∧ RecordsOf s.bank.banks[n] words

/-- R12, R38, R57, R74, R95, R115, R124, R142, R145, R154, R178, R190, R192: the data of each reading request are the
fields its rule names, in that order, each in its width, most significant byte first, with its code; a field that may be
absent has a presence byte and is 0 when absent (log entry 17; the two counts of GET_LINK: 40, the step on the bus of
GET_MEMORY: 42). READ_LOG gives the entries from the number named on, none
from the next number, and otherwise every entry, marked as missing some (R143). -/
def Sys2Proof.Machine.ReadingAnswersTheFields : Prop :=
  ∀ p (n : Fin 8) start s, Running s →
    let answers := fun (c : Instr) (xs : List Field) =>
      exec c s = .next { s with port := answeredPorts p (answer .ok (laidOut xs)) s.port }
    let log := fun (missed : Bool) (es : List LogEntry) => answers (.readLog p start)
      ([(4, s.alarm.nextSequence.toNat), (1, flagValue missed)] ++ es.flatMap logFields)
    answers (.getScreen p n.val) (screenFields s.screens[n])
    ∧ answers (.getLink p n.val) (linkFields s.links[n])
    ∧ answers (.getProfile p n.val) (decoderFields s.decoder[n])
    ∧ answers (.getFaderLaw p) (gainFields s.gain)
    ∧ answers (.getLibrary p) (libraryFields s.library)
    ∧ answers (.getMemory p n.val) (memoryFields n s.memory)
    ∧ answers (.readMeters p n.val) (meterFields n s.meter)
    ∧ answers (.readActive p start) (alarmFields start s.alarm)
    ∧ answers (.readSnapshot p n.val) (maybe 140 snapshotFields s.alarm.snapshots[n])
    ∧ answers (.listCues p n.val start) (cueListFields n start s.cue)
    ∧ answers (.getExpander p) (relayFields s.relay)
    ∧ (∀ before e after, s.alarm.log = before ++ e :: after → e.sequence = BitVec.ofNat 32 start →
        (∀ x ∈ before, x.sequence ≠ e.sequence) → log false (e :: after))
    ∧ ((∀ e ∈ s.alarm.log, e.sequence ≠ BitVec.ofNat 32 start) →
        (s.alarm.nextSequence = BitVec.ofNat 32 start → log false [])
        ∧ (s.alarm.nextSequence ≠ BitVec.ofNat 32 start → log true s.alarm.log))

/-- The reading requests are answered OK and change nothing, READ_BANK gives the whole active bank, and the others the
fields their rules name. -/
def Obligations.ReadingRequestsChangeNothing : Prop :=
  ReadingKeepsTheState ∧ ReadBankAnswersTheRecords ∧ ReadingAnswersTheFields

/-! ### The screen -/

/-- R7: SCREEN_ON is refused with BAD_STATE on a screen that is not OFF and with BUSY on an OFF screen while the
controller is INITIALISING; otherwise it is answered OK, the context, the sixteen rings, the meters and watches, the
steering state, the section histories (R59), the cue enable and START pending are set as R7 says, and nothing else
changes. The link state is the one the Screen Controller has noted (log entry 13). An advance of the screen still on
its way is taken first, as POSITION_ADVANCE takes it, behind the screen's cue events and the holds they
bring (log entry 10). -/
def Obligations.ScreenOnEntersService : Prop :=
  ∀ p (n : Fin 8) s, Running s →
    (s.screens[n].state ≠ .off →
      exec (.screenOn p n.val) s = .next { s with port := answeredPorts p (refusal .badState) s.port })
    ∧ (s.screens[n].state = .off → s.memory.state = .initialising →
      exec (.screenOn p n.val) s = .next { s with port := answeredPorts p (refusal .busy) s.port })
    ∧ (∀ a before after, s.screens[n].state = .off → s.memory.state = .ready → s.mail.advances = before ++ a :: after →
      (∀ x ∈ before, x.screen ≠ n) → a.screen = n →
      (¬EventsComing n s →
        ∃ u, exec (.positionAdvance n) s = .next u ∧ exec (.screenOn p n.val) s = exec (.screenOn p n.val) u)
      ∧ (EventsComing n s → ∃ u, exec (.screenOn p n.val) s = exec (.screenOn p n.val) u ∧ ¬EventsComing n u
        ∧ (let raised := (s.mail.alarms.filter (isCueEvent n)).foldl (fun x r => takeRaise r x) s
          u = { raised with
            cue := { s.cue with schedules := u.cue.schedules }
            mail := { raised.mail with
              alarms := s.mail.alarms.filter fun r => !isCueEvent n r
              holds := raised.mail.holds.filter fun h => !(h.screen = n && h.ofCue) } }
          ∧ ((∃ h ∈ raised.mail.holds, h.screen = n ∧ h.ofCue = true) →
              u.cue.schedules[n] = { s.cue.schedules[n] with enable := false })
          ∧ ((∀ h ∈ raised.mail.holds, h.screen ≠ n ∨ h.ofCue = false) → u.cue.schedules[n] = s.cue.schedules[n]))
        ∧ OthersKept n s.cue.schedules u.cue.schedules))
    ∧ (s.screens[n].state = .off → s.memory.state = .ready → (∀ a ∈ s.mail.advances, a.screen ≠ n) →
      ∃ t, exec (.screenOn p n.val) s = .next t
        ∧ t = { s with
            screens := t.screens, links := t.links, decoder := t.decoder
            memory := { s.memory with rings := t.memory.rings }
            engine := { s.engine with channels := t.engine.channels }
            meter := { s.meter with meters := t.meter.meters, watches := t.meter.watches }
            cue := { s.cue with schedules := t.cue.schedules }
            port := answeredPorts p (answer .ok []) s.port }
        ∧ t.screens[n] = { s.screens[n] with
            state := if s.screens[n].notedLink = .locked ∨ s.screens[n].notedLink = .holdover
              then .playing else .ready
            queue := [Vector.replicate 16 (List.replicate 48 0), Vector.replicate 16 (List.replicate 48 0)]
            outstanding := 0, owed := 0, causes := [], hold := false }
        ∧ OthersKept n s.screens t.screens
        ∧ (∀ k : Fin 128, t.memory.rings[k] =
            if k.val / 16 = n.val then { s.memory.rings[k] with history := 0, zeros := 0 } else s.memory.rings[k])
        ∧ (∀ i : Fin 32, t.meter.meters[n][i] = { peak := 0, value := 0, clips := 0 }
            ∧ t.meter.watches[n][i] = { s.meter.watches[n][i] with run := 0, raised := false })
        ∧ OthersKept n s.meter.meters t.meter.meters ∧ OthersKept n s.meter.watches t.meter.watches
        ∧ t.decoder[n] = { s.decoder[n] with steering := { el := 0, er := 0, es := 0, ed := 0, lr := 0, fb := 0 } }
        ∧ OthersKept n s.decoder t.decoder
        ∧ (∀ c : Fin 16, t.engine.channels[n][c] = { s.engine.channels[n][c] with
            histories := Vector.replicate 12 { x1 := 0, x2 := 0, y1 := 0, y2 := 0 } })
        ∧ OthersKept n s.engine.channels t.engine.channels
        ∧ t.links[n] = { s.links[n] with startPending := true } ∧ OthersKept n s.links t.links
        ∧ t.cue.schedules[n] = { enable := true, lastEnd := none }
        ∧ OthersKept n s.cue.schedules t.cue.schedules)

/-- R8, R9: SCREEN_OFF is refused on an OFF screen, sets OFF pending and nothing else while a period of the screen is
in service, and otherwise brings the screen into OFF at once, with every staged change applied, ramps at their
targets, watches clear, and the newest packet alone in the receiver's queue. Cause additions of the screen already on
their way are marked to be discarded on arrival (R6), sections newly in use by the swap start from rest (R62), and a
profile that changes the mode or the matrix pair resets the steering state (R44). -/
def Sys2Proof.Machine.ScreenOffStopsTheScreen : Prop :=
  ∀ p (n : Fin 8) s, Running s →
    (s.screens[n].state = .off →
      exec (.screenOff p n.val) s = .next { s with port := answeredPorts p (refusal .badState) s.port })
    ∧ (s.screens[n].state ≠ .off → inService n s = true →
      ∃ t, exec (.screenOff p n.val) s = .next t
        ∧ t = { s with screens := t.screens, port := answeredPorts p (answer .accepted []) s.port }
        ∧ t.screens[n] = { s.screens[n] with offPending := true } ∧ OthersKept n s.screens t.screens)
    ∧ (s.screens[n].state ≠ .off → inService n s = false →
      ∃ t, exec (.screenOff p n.val) s = .next t
        ∧ t = { s with
            screens := t.screens, links := t.links, decoder := t.decoder
            gain := { s.gain with levels := t.gain.levels }
            bank := t.bank
            engine := { s.engine with channels := t.engine.channels }
            meter := { s.meter with watches := t.meter.watches }
            port := answeredPorts p (answer .ok []) s.port
            mail := { s.mail with
              alarms := t.mail.alarms
              causes := s.mail.causes.map fun m =>
                if m.screen = n ∧ m.add = true then { m with stale := true } else m } }
        ∧ t.screens[n] = { s.screens[n] with
            state := .off, offPending := false, queue := [], outstanding := 0, owed := 0, causes := [], hold := false
            swapMark := false, profileMark := false, formatMark := false }
        ∧ OthersKept n s.screens t.screens
        ∧ (∀ d b, s.bank.drafts[n] = some d → d.state = .committing → d.content = some b →
            t.bank.banks[n] = b ∧ t.bank.drafts[n] = none)
        ∧ ((∀ d, s.bank.drafts[n] = some d → d.state ≠ .committing) →
            t.bank.banks[n] = s.bank.banks[n] ∧ t.bank.drafts[n] = s.bank.drafts[n])
        ∧ OthersKept n s.bank.banks t.bank.banks ∧ OthersKept n s.bank.drafts t.bank.drafts
        ∧ t.decoder[n].profile = s.decoder[n].staged.getD s.decoder[n].profile ∧ t.decoder[n].staged = none
        ∧ SteeringCarries s.decoder[n] t.decoder[n]
        ∧ OthersKept n s.decoder t.decoder
        ∧ (∀ r, s.gain.levels[n].ramp = some r → t.gain.levels[n].gain = r.target)
        ∧ (s.gain.levels[n].ramp = none → t.gain.levels[n].gain = s.gain.levels[n].gain)
        ∧ t.gain.levels[n].ramp = none ∧ t.gain.levels[n].level = s.gain.levels[n].level
        ∧ t.gain.levels[n].muted = s.gain.levels[n].muted
        ∧ t.gain.levels[n].factor = (if s.gain.levels[n].muted = true then 0 else 8)
        ∧ OthersKept n s.gain.levels t.gain.levels
        ∧ (∀ i : Fin 32, t.meter.watches[n][i] = { s.meter.watches[n][i] with run := 0, raised := false })
        ∧ OthersKept n s.meter.watches t.meter.watches
        ∧ t.links[n] = { s.links[n] with queue := s.links[n].queue.getLast?.toList, known := false }
        ∧ OthersKept n s.links t.links
        ∧ (∀ c : Fin 16, t.engine.channels[n][c].delayInUse = (t.bank.banks[n][c]).delay
            ∧ t.engine.channels[n][c].target = none ∧ t.engine.channels[n][c].clip = s.engine.channels[n][c].clip
            ∧ HistoriesCarry s.bank.banks[n][c] t.bank.banks[n][c] s.engine.channels[n][c] t.engine.channels[n][c])
        ∧ OthersKept n s.engine.channels t.engine.channels)

/-- R9: at entry into OFF the absence of every condition of the screen that stands present in the active set is
reported behind what was already sent, and no identity of another scope is. -/
def Sys2Proof.Machine.EntryIntoOffReportsAbsences : Prop :=
  ∀ p (n : Fin 8) s, Running s → s.screens[n].state ≠ .off → inService n s = false →
    ∃ t sent, exec (.screenOff p n.val) s = .next t ∧ t.mail.alarms = s.mail.alarms ++ sent
      ∧ (∀ e ∈ s.alarm.active, e.present = true → e.id.scope = .screen n → isCondition e.id.kind = true →
          validId e.id = true → ∃ r ∈ sent, r.id = e.id ∧ r.raise = false)
      ∧ ∀ r ∈ sent, r.raise = false ∧ r.id.scope = .screen n ∧ isCondition r.id.kind = true

/-- R8, R9: SCREEN_OFF takes a screen out of service, and the absences of its conditions are reported (log entry 27). -/
def Obligations.ScreenOffLeavesService : Prop :=
  ScreenOffStopsTheScreen ∧ EntryIntoOffReportsAbsences

/-- R10, R11: FORCE_FALLBACK sets the hold flag and the screen is in FALLBACK; RESUME clears it when no cause stands,
and a screen in FALLBACK then takes the state its link gives it; both are refused on an OFF screen, and RESUME
while a cause stands. Nothing else changes. -/
def Obligations.ForceFallbackAndResumeMoveTheHold : Prop :=
  ∀ p (n : Fin 8) s, Running s →
    (s.screens[n].state = .off →
      exec (.forceFallback p n.val) s = .next { s with port := answeredPorts p (refusal .badState) s.port }
      ∧ exec (.resume p n.val) s = .next { s with port := answeredPorts p (refusal .badState) s.port })
    ∧ (s.screens[n].state ≠ .off →
      ∃ t, exec (.forceFallback p n.val) s = .next t
        ∧ t = { s with screens := t.screens, port := answeredPorts p (answer .ok []) s.port }
        ∧ t.screens[n] = { s.screens[n] with state := .fallback, hold := true }
        ∧ OthersKept n s.screens t.screens)
    ∧ (s.screens[n].state ≠ .off → s.screens[n].causes ≠ [] →
      exec (.resume p n.val) s = .next { s with port := answeredPorts p (refusal .badState) s.port })
    ∧ (s.screens[n].state ≠ .off → s.screens[n].causes = [] → FollowsRule s.screens[n] →
      ∃ t, exec (.resume p n.val) s = .next t
        ∧ t = { s with screens := t.screens, port := answeredPorts p (answer .ok []) s.port }
        ∧ t.screens[n] = { s.screens[n] with
            hold := false
            state := if s.screens[n].state = .fallback then
                (if s.screens[n].notedLink = .locked ∨ s.screens[n].notedLink = .holdover
                  then .playing else .ready)
              else s.screens[n].state }
        ∧ OthersKept n s.screens t.screens)

/-- R5: the Screen Controller takes the oldest report of a screen's link, notes it, and the state follows. -/
def Sys2Proof.Machine.LinkReportMovesTheScreen : Prop :=
  ∀ (n : Fin 8) st before after s, Running s → s.mail.links = before ++ (n, st) :: after →
    (∀ r ∈ before, r.1 ≠ n) →
    ∃ t, exec (.linkStateReport n) s = .next t
      ∧ t = { s with screens := t.screens, mail := { s.mail with links := before ++ after } }
      ∧ Settled s.decoder[n].profile.autoReturn { s.screens[n] with notedLink := st } t.screens[n]
      ∧ OthersKept n s.screens t.screens

/-- R6, R4: a cause addition puts its identity in the set of a screen in service and a removal takes it away, and the
state follows; on an OFF screen neither changes anything, and no stale addition does. -/
def Sys2Proof.Machine.CausesMoveTheScreen : Prop :=
  (∀ (m : CauseMessage) before after s, Running s → m.add = true → s.mail.causes = before ++ m :: after →
    (∀ x ∈ before, ¬(x.add = true ∧ x.id = m.id)) →
    ∃ t c, exec (.causeAddition m.id) s = .next t
      ∧ t = { s with screens := t.screens, mail := { s.mail with causes := before ++ after } }
      ∧ OthersKept m.screen s.screens t.screens
      ∧ ((s.screens[m.screen].state = .off ∨ m.stale = true) → t.screens[m.screen] = s.screens[m.screen])
      ∧ (s.screens[m.screen].state ≠ .off → m.stale = false →
          Settled s.decoder[m.screen].profile.autoReturn c t.screens[m.screen]
          ∧ c = { s.screens[m.screen] with causes := c.causes }
          ∧ ∀ x, x ∈ c.causes ↔ x = m.id ∨ x ∈ s.screens[m.screen].causes))
  ∧ ∀ (m : CauseMessage) before after s, Running s → m.add = false → s.mail.causes = before ++ m :: after →
    (∀ x ∈ before, ¬(x.add = false ∧ x.id = m.id)) →
    ∃ t c, exec (.causeRemoval m.id) s = .next t
      ∧ t = { s with screens := t.screens, mail := { s.mail with causes := before ++ after } }
      ∧ OthersKept m.screen s.screens t.screens
      ∧ (s.screens[m.screen].state = .off → t.screens[m.screen] = s.screens[m.screen])
      ∧ (s.screens[m.screen].state ≠ .off →
          Settled s.decoder[m.screen].profile.autoReturn c t.screens[m.screen]
          ∧ c = { s.screens[m.screen] with causes := c.causes }
          ∧ ∀ x, x ∈ c.causes ↔ x ≠ m.id ∧ x ∈ s.screens[m.screen].causes)

/-- R3 to R6: link reports, cause additions and cause removals move a screen as the screen state rule says. -/
def Obligations.ReportsMoveTheScreen : Prop :=
  LinkReportMovesTheScreen ∧ CausesMoveTheScreen

/-- R3: from any state in which every screen follows the screen state rule, a step leaves every screen following it. -/
def Obligations.EveryStepKeepsTheScreenRule : Prop :=
  ∀ s t, ScreensFollowRule s → step s = .next t → ScreensFollowRule t

/-- R14, R19: every step keeps the accounting of every screen. -/
def Obligations.EveryStepKeepsTheAccounting : Prop :=
  ∀ s t, AccountsKept s → step s = .next t → AccountsKept t

/-! ### The house period boundary -/

/-- R13, R19: at a boundary an OFF screen's port sends zeros and leaves the context unchanged; a screen in service
sends its oldest block, or on an underrun a silent block with ENGINE_LATE raised; and a demand that raises the
outstanding count to 4 ends one period at once, in service or not, with its block discarded. -/
def Obligations.BoundaryFeedsTheOutputPorts : Prop :=
  ∀ b low s, Running s → ∃ t, exec (.housePeriodBoundary b low) s = .next t ∧ ∀ n : Fin 8,
    (s.screens[n].state = .off →
      t.screens[n] = { s.screens[n] with sending := Vector.replicate 16 (List.replicate 48 0) })
    ∧ (∀ first rest, s.screens[n].state ≠ .off → s.screens[n].queue = first :: rest →
        s.screens[n].outstanding < 3 →
        t.screens[n] = { s.screens[n] with
          sending := first, queue := rest, outstanding := s.screens[n].outstanding + 1 })
    ∧ (s.screens[n].state ≠ .off → s.screens[n].queue = [] →
        raiseOf { kind := .engineLate, scope := .screen n, index := 0 } ∈ t.mail.alarms)
    ∧ (s.screens[n].state ≠ .off → s.screens[n].queue = [] → s.screens[n].outstanding < 3 →
        t.screens[n] = { s.screens[n] with
          sending := Vector.replicate 16 (List.replicate 48 0)
          outstanding := s.screens[n].outstanding + 1, owed := s.screens[n].owed + 1 })
    ∧ (s.screens[n].state ≠ .off → AccountKept s n → s.screens[n].outstanding = 3 →
        s.screens[n].offPending = false →
        t.screens[n].state = s.screens[n].state ∧ t.screens[n].queue = []
        ∧ t.screens[n].outstanding = 3 ∧ t.screens[n].owed = 1
        ∧ t.screens[n].sending = Vector.replicate 16 (List.replicate 48 0)
        ∧ (inService n s = true → t.engine.service = none
            ∧ t.screens[n].swapMark = s.screens[n].swapMark)
        ∧ (inService n s = false → t.screens[n].swapMark = false ∧ t.screens[n].profileMark = false
            ∧ t.screens[n].formatMark = false)
        ∧ ∀ c : Fin 16, (t.memory.rings[ringOf n c]).history = 0 ∧ (t.memory.rings[ringOf n c]).zeros = 0)
    ∧ (s.screens[n].state ≠ .off → AccountKept s n → s.screens[n].outstanding = 3 →
        s.screens[n].offPending = true → t.screens[n].state = .off ∧ t.screens[n].outstanding = 0
        ∧ t.screens[n].owed = 0 ∧ t.engine.service = none)

/-- R20, R26, R31, R71, R72, R166: with no overflow at a boundary, the backup ring takes the completed period and
keeps the 16 latest, every quiet count rises to at most 100 and times out an acquisition or an OFF screen's link,
every fader ramp and mute factor of a screen in service moves one step, every pulse counts down and is released at
0, and the alarm and meter records, the profiles, the cue pool and the SDRAM are as before. -/
def Obligations.BoundaryStepsEveryTimer : Prop :=
  ∀ b low s, Running s → (∀ n : Fin 8, NoOverflow s n) →
    ∃ t, exec (.housePeriodBoundary b low) s = .next t
      ∧ t.engine = { s.engine with backup := t.engine.backup }
      ∧ t.engine.backup =
          (if s.engine.backup.length < 16 then s.engine.backup else s.engine.backup.tail)
            ++ [b.toList.map fun f => (f.1.toInt, f.2.toInt)]
      ∧ t.alarm = s.alarm ∧ t.meter = s.meter ∧ t.decoder = s.decoder ∧ t.port = s.port ∧ t.gain.law = s.gain.law
      ∧ t.bank.banks = s.bank.banks ∧ t.cue.pool = s.cue.pool ∧ t.cue.schedules = s.cue.schedules
      ∧ t.memory.sdram = s.memory.sdram ∧ t.memory.rings = s.memory.rings
      ∧ (∀ n : Fin 8,
          let l := s.links[n]
          let timeOut := 99 ≤ l.quiet ∧ (l.state = .acquiring
            ∨ s.screens[n].state = .off ∧ (l.state = .locked ∨ l.state = .holdover))
          (timeOut → t.links[n] = { l with
            quiet := 100, state := .down, queue := [], acquisition := 0, missed := 0, known := false })
          ∧ (¬timeOut → t.links[n] = { l with quiet := min (l.quiet + 1) 100 }))
      ∧ (∀ n : Fin 8, s.screens[n].state = .off → t.gain.levels[n] = s.gain.levels[n])
      ∧ (∀ n : Fin 8, s.screens[n].state ≠ .off →
          let m := s.gain.levels[n]
          t.gain.levels[n].level = m.level ∧ t.gain.levels[n].muted = m.muted
          ∧ t.gain.levels[n].factor =
              (if m.muted = true then m.factor - 1 else if m.factor < 8 then m.factor + 1 else m.factor)
          ∧ (m.ramp = none → t.gain.levels[n].ramp = none ∧ t.gain.levels[n].gain = m.gain)
          ∧ (∀ r, m.ramp = some r → r.done + 1 < r.length →
              t.gain.levels[n].ramp = some { r with done := r.done + 1 }
              ∧ (r.start ≤ r.target →
                  t.gain.levels[n].gain = r.start + (r.target - r.start) * (r.done + 1) / r.length)
              ∧ (r.target ≤ r.start →
                  t.gain.levels[n].gain = r.start - (r.start - r.target) * (r.done + 1) / r.length))
          ∧ (∀ r, m.ramp = some r → r.length ≤ r.done + 1 →
              t.gain.levels[n].ramp = none ∧ t.gain.levels[n].gain = r.target))
      ∧ ∀ i : Fin 8,
          let l := s.cue.lines[i]
          (l.pulse = false → t.cue.lines[i] = l)
          ∧ (l.pulse = true → 1 < l.remaining → t.cue.lines[i] = { l with remaining := l.remaining - 1 })
          ∧ (l.pulse = true → l.remaining ≤ 1 →
              t.cue.lines[i] = { pulse := false, level := false, remaining := 0 })

/-- R82: a port-held draft that is LOADING or EDITABLE is removed at the boundary at which the count less its last
touch reaches 30,000, with one DRAFT_EXPIRED raised, and no other draft expires: a CUE draft or one touched since is as it
was, and a COMMITTING one too, unless an overflow of its screen swaps it in (R19, R84). -/
def Sys2Proof.Machine.BoundaryExpiresUntouchedDrafts : Prop :=
  ∀ b low s (n : Fin 8), Running s →
    let due := fun (d : Draft) => ∃ p touch, d.holder = .port p touch
      ∧ 30000 ≤ (s.system.housePeriods + 1 - touch).toNat
    let event : AlarmId := { kind := .draftExpired, scope := .screen n, index := 0 }
    let reports := fun (u : State) => u.mail.alarms.filter fun r => r.id = event
    ∃ t, exec (.housePeriodBoundary b low) s = .next t
      ∧ (s.bank.drafts[n] = none → t.bank.drafts[n] = none ∧ reports t = reports s)
      ∧ ∀ d, s.bank.drafts[n] = some d →
          (d.state ≠ .committing → due d → t.bank.drafts[n] = none ∧ reports t = reports s ++ [raiseOf event])
          ∧ (d.state ≠ .committing → ¬due d → t.bank.drafts[n] = some d ∧ reports t = reports s)
          ∧ (d.state = .committing → reports t = reports s
              ∧ (t.bank.drafts[n] = some d ∨ ¬NoOverflow s n ∧ t.bank.drafts[n] = none))

/-- R174, R176: at a boundary the stretch count rises while a step waits for a held clock, and does not otherwise; at
26 the transaction is abandoned: an unsettled one settles as a failure and is reported once, a settled one changes no
entry and makes no report, and the master enters RECOVER with the transaction settled and the queue as it was. Before
the first data byte is complete the confirmed image is kept (log entry 15). At 26 in a recovery pulse the recovery is
STUCK and the bus goes to STOP, with that pulse not counted (log entry 45), and in the STOP of a recovery it is STUCK
and the bus goes to IDLE (R175; the wait in STOP after a recovery that gave up: log entry 46). -/
def Sys2Proof.Machine.BoundaryCountsTheStretch : Prop :=
  let reports := fun (u : State) => u.mail.alarms.filter fun r => r.id.kind = .relayFault
  ∀ b s, Running s →
    (∃ t, exec (.housePeriodBoundary b false) s = .next t ∧ t.relay = { s.relay with clockHeld := false }
      ∧ reports t = reports s)
    ∧ (∃ t, exec (.housePeriodBoundary b true) s = .next t
        ∧ (s.relay.bus = .idle → t.relay = { s.relay with clockHeld := true } ∧ reports t = reports s)
        ∧ (s.relay.bus ≠ .idle → s.relay.stretch < 25 →
            t.relay = { s.relay with clockHeld := true, stretch := s.relay.stretch + 1 } ∧ reports t = reports s)
        ∧ (∀ f, s.relay.flight = some f → s.relay.stretch = 25 → s.relay.bus = .recover →
            t.relay = { s.relay with clockHeld := true, bus := .stop, stretch := 0, lastRecovery := .stuck }
            ∧ reports t = reports s)
        ∧ (∀ f, s.relay.flight = some f → s.relay.stretch = 25 → s.relay.bus = .stop → f.recovering = true →
            t.relay = { s.relay with
              clockHeld := true, stretch := 26, bus := .idle, flight := none, lastRecovery := .stuck }
            ∧ reports t = reports s)
        ∧ ∀ f, s.relay.flight = some f → s.relay.stretch = 25 → f.recovering = false →
            s.relay.bus ≠ .idle → s.relay.bus ≠ .recover →
            t.relay = { s.relay with
              clockHeld := true, bus := .recover, stretch := 0, expanders := t.relay.expanders
              flight := some { f with settled := true, recovering := true } }
            ∧ (f.settled = true → t.relay.expanders = s.relay.expanders ∧ reports t = reports s)
            ∧ (f.settled = false →
                reports t = reports s ++ [raiseOf { kind := .relayFault, scope := .device, index := f.expander.val }]
                ∧ t.relay.expanders[f.expander] = { s.relay.expanders[f.expander] with
                    state := .faulty
                    confirmed := if f.inVerify = false ∧ f.bytes = 0
                      then s.relay.expanders[f.expander].confirmed else none }
                ∧ OthersKept f.expander s.relay.expanders t.relay.expanders))

/-- R82, R174, R175: a boundary expires untouched drafts and counts the stretch of a relay step (log entries 5 and 14); a
timeout before the first data byte is complete keeps the confirmed image, which is the model's reading of R176 (log
entry 15). -/
def Obligations.BoundaryEndsWaits : Prop :=
  BoundaryExpiresUntouchedDrafts ∧ BoundaryCountsTheStretch

/-- R26, R29, R31, R82, R166, R174: a timeout that is due sends its link DOWN, raises LINK_LOST, removes its draft with
its load (R93), releases its pulse, gives a recovery up, or leaves a recovery's STOP for IDLE; one that is not due
changes nothing (log entries 4 and 5). The end of a clock hold changes nothing but the hold. -/
def Obligations.TimeoutsActWhenDue : Prop :=
  (∀ (n : Fin 8) s, Running s →
    (s.links[n].state = .acquiring → s.links[n].quiet = 100 →
      ∃ t, exec (.acquisitionTimeout n) s = .next t
        ∧ t = { s with links := t.links, mail := { s.mail with links := s.mail.links ++ [(n, .down)] } }
        ∧ t.links[n] = { s.links[n] with
            state := .down, queue := [], acquisition := 0, missed := 0, known := false }
        ∧ OthersKept n s.links t.links)
    ∧ ((s.links[n].state ≠ .acquiring ∨ s.links[n].quiet ≠ 100) → exec (.acquisitionTimeout n) s = .next s))
  ∧ (∀ (n : Fin 8) s, Running s →
    (s.screens[n].state = .off → (s.links[n].state = .locked ∨ s.links[n].state = .holdover) →
      s.links[n].quiet = 100 →
      ∃ t, exec (.offQuietTimeout n) s = .next t
        ∧ t = { s with links := t.links, mail := { s.mail with links := s.mail.links ++ [(n, .down)] } }
        ∧ t.links[n] = { s.links[n] with
            state := .down, queue := [], acquisition := 0, missed := 0, known := false }
        ∧ OthersKept n s.links t.links)
    ∧ ((s.screens[n].state ≠ .off ∨ s.links[n].quiet ≠ 100
        ∨ s.links[n].state = .down ∨ s.links[n].state = .acquiring) → exec (.offQuietTimeout n) s = .next s))
  ∧ (∀ (n : Fin 8) s, Running s →
    (s.links[n].state = .holdover → 32 ≤ s.links[n].missed →
      ∃ t, exec (.linkLoss n) s = .next t
        ∧ t = { s with links := t.links, mail := { s.mail with
            links := s.mail.links ++ [(n, .down)]
            alarms := s.mail.alarms ++ [raiseOf { kind := .linkLost, scope := .screen n, index := 0 }] } }
        ∧ t.links[n] = { s.links[n] with
            state := .down, queue := [], acquisition := 0, missed := 0, known := false, lossReported := true }
        ∧ OthersKept n s.links t.links)
    ∧ ((s.links[n].state ≠ .holdover ∨ s.links[n].missed < 32) → exec (.linkLoss n) s = .next s))
  ∧ (∀ (n : Fin 8) s, Running s →
    let due := fun (d : Draft) => ∃ p touch, d.holder = .port p touch ∧ d.state ≠ .committing
      ∧ 30000 ≤ (s.system.housePeriods - touch).toNat
    let raised := { s.mail with
      alarms := s.mail.alarms ++ [raiseOf { kind := .draftExpired, scope := .screen n, index := 0 }] }
    (∀ d, s.bank.drafts[n] = some d → due d → d.state = .editable →
      ∃ t, exec (.draftExpiry n) s = .next t
        ∧ t = { s with bank := t.bank, mail := raised }
        ∧ t.bank.banks = s.bank.banks ∧ t.bank.drafts[n] = none ∧ OthersKept n s.bank.drafts t.bank.drafts)
    ∧ (∀ d before e after, s.bank.drafts[n] = some d → due d → d.state = .loading →
      IsDraftsLoad n s before e after →
      ∃ t u, LoadDropped before e after s u ∧ exec (.draftExpiry n) s = .next t
        ∧ t = { u with bank := t.bank, mail := raised }
        ∧ t.bank.banks = s.bank.banks ∧ t.bank.drafts[n] = none ∧ OthersKept n s.bank.drafts t.bank.drafts)
    ∧ ((∀ d, s.bank.drafts[n] = some d → ¬due d) → exec (.draftExpiry n) s = .next s))
  ∧ (∀ (i : Fin 8) s, Running s →
      ∃ t, exec (.pulseRelease i) s = .next t
        ∧ t = { s with cue := { s.cue with lines := t.cue.lines } }
        ∧ t.cue.lines[i] = (if s.cue.lines[i].pulse = true ∧ s.cue.lines[i].remaining = 0
            then { pulse := false, level := false, remaining := 0 } else s.cue.lines[i])
        ∧ OthersKept i s.cue.lines t.cue.lines)
  ∧ (∀ s, Running s →
    (∀ f, s.relay.flight = some f → s.relay.bus = .recover → s.relay.clockHeld = true → s.relay.stretch = 26 →
      exec .stretchTimeout s = .next { s with
        relay := { s.relay with bus := .stop, stretch := 0, lastRecovery := .stuck } })
    ∧ (∀ f, s.relay.flight = some f → f.recovering = true → s.relay.bus = .stop → s.relay.clockHeld = true →
        s.relay.stretch = 26 →
        exec .stretchTimeout s = .next { s with
          relay := { s.relay with bus := .idle, flight := none, lastRecovery := .stuck } })
    ∧ ((s.relay.clockHeld = false ∨ s.relay.stretch < 26) → exec .stretchTimeout s = .next s))
  ∧ ∀ s, Running s → exec .clockHoldEnd s = .next { s with relay := { s.relay with clockHeld := false } }


/-! ### The memory bus -/

/-- R100: each step of the initialisation sequence starts when the one before it completes, the first at the first
boundary after the reset; the eighth refresh is followed by MODE_SET, and MODE_SET by READY with the timer running
and nothing pending. -/
def Sys2Proof.Machine.InitialisationRunsItsSteps : Prop :=
  (∀ b low s, Running s → s.memory.bus = .init → s.memory.step = .wait →
    ∃ t, exec (.housePeriodBoundary b low) s = .next t ∧ t.memory.step = .precharge ∧ t.memory.bus = .init
      ∧ t.memory.state = s.memory.state)
  ∧ (∀ s, Running s → s.memory.bus = .init → s.memory.step = .precharge →
      exec .prechargeDone s = .next { s with memory := { s.memory with step := .refresh 1 } })
  ∧ (∀ s k, Running s → s.memory.bus = .init → s.memory.step = .refresh k → k < 8 →
      exec .initRefreshDone s = .next { s with memory := { s.memory with step := .refresh (k + 1) } })
  ∧ (∀ s, Running s → s.memory.bus = .init → s.memory.step = .refresh 8 →
      exec .initRefreshDone s = .next { s with memory := { s.memory with step := .modeSet } })
  ∧ ∀ s, Running s → s.memory.bus = .init → s.memory.step = .modeSet →
      exec .modeSetDone s = .next { s with
        memory := { s.memory with state := .ready, step := .done, pending := 0, timerRunning := true, bus := .none } }

/-- R103, R104, R101: an expiry raises the pending count by 1, and none comes while INITIALISING; a completed refresh
frees the bus and lowers the count by 1; nothing else changes. -/
def Sys2Proof.Machine.RefreshesAreCounted : Prop :=
  (∀ s, Running s → s.memory.timerRunning = true → s.memory.pending < 8 →
    exec .refreshIntervalExpiry s = .next { s with memory := { s.memory with pending := s.memory.pending + 1 } })
  ∧ (∀ s, Running s → s.memory.timerRunning = false → exec .refreshIntervalExpiry s = .next s)
  ∧ ∀ s, Running s → s.memory.bus = .refresh → 0 < s.memory.pending →
      exec .refreshComplete s = .next { s with
        memory := { s.memory with bus := .none, pending := s.memory.pending - 1 } }

/-- R100 to R104: the initialisation sequence and the counting of refreshes. -/
def Obligations.ControllerInitialisesAndRefreshes : Prop :=
  InitialisationRunsItsSteps ∧ RefreshesAreCounted

/-- R105, R104: a READY controller with a free bus grants the first that applies of a forced refresh, the oldest ring
transfer, the library request and an opportunistic refresh, a forced refresh being counted; otherwise the bus stays
as it is. -/
def Obligations.BusGoesToTheFirstThatApplies : Prop :=
  ∀ s, Running s →
    (s.memory.state = .ready → s.memory.bus = .none → s.memory.pending = 8 →
      exec .memoryBusGrant s = .next { s with
        memory := { s.memory with bus := .refresh, forced := min (s.memory.forced + 1) 65535 } })
    ∧ (∀ x rest, s.memory.state = .ready → s.memory.bus = .none → s.memory.pending < 8 →
        s.memory.ringList = x :: rest →
        exec .memoryBusGrant s = .next { s with
          memory := { s.memory with bus := .ring x true, ringList := rest } })
    ∧ (∀ b, s.memory.state = .ready → s.memory.bus = .none → s.memory.pending < 8 → s.memory.ringList = [] →
        s.memory.libraryRequest = some b →
        ∃ words, exec .memoryBusGrant s = .next { s with
            memory := { s.memory with bus := .burst b words true, libraryRequest := none } }
          ∧ (b.write = true → 1 ≤ b.number → b.number ≤ 32 →
              words = (s.library.buffer.drop (4 + (b.number - 1) * 32)).take 32)
          ∧ (b.write = true → b.number = 33 → words = s.library.buffer.take 4))
    ∧ (s.memory.state = .ready → s.memory.bus = .none → 0 < s.memory.pending → s.memory.pending < 8 →
        s.memory.ringList = [] → s.memory.libraryRequest = none →
        exec .memoryBusGrant s = .next { s with memory := { s.memory with bus := .refresh } })
    ∧ (s.memory.state = .ready → s.memory.bus = .none → s.memory.pending = 0 → s.memory.ringList = [] →
        s.memory.libraryRequest = none → exec .memoryBusGrant s = .next s)
    ∧ (s.memory.bus ≠ .none → exec .memoryBusGrant s = .next s)

/-- R97, R98: ring k's words lie in its own 12,288 words of the ring region, the library's bursts lie in their slot's
1,028 words, and no word belongs to two rings or to a ring and a slot; a sample of the internal range comes back
from its word as it was written, and every word reads as a sample of the internal range. -/
def Obligations.MemoryMapKeepsItsRegions : Prop :=
  (∀ (k : Fin 128) j, 65536 + k.val * 12288 ≤ ringWord k j ∧ ringWord k j < 65536 + (k.val + 1) * 12288)
  ∧ (∀ (k l : Fin 128) i j, i < 12288 → j < 12288 → ringWord k i = ringWord l j → k = l ∧ i = j)
  ∧ (∀ (b : Burst) j, 1 ≤ b.number → b.number ≤ 33 → j < burstLength b →
      b.slot.val * 1280 ≤ burstAddress b + j ∧ burstAddress b + j < b.slot.val * 1280 + 1028
      ∧ burstAddress b + j < 65536)
  ∧ (∀ x : Int, -134217728 ≤ x → x ≤ 134217727 → wordToSample (sampleToWord x) = x)
  ∧ ∀ w : Word, -134217728 ≤ wordToSample w ∧ wordToSample w ≤ 134217727

/-- R98, R110, R113: a completed write transfer frees the bus and leaves its samples in its ring's words and every
other word of the SDRAM as it was; if the period that asked for it is in service its ring record counts the write,
and otherwise no ring record changes. -/
def Obligations.RingWriteReachesTheSdram : Prop :=
  ∀ (k : Fin 128) start vs live s, Running s → s.memory.bus = .ring (.write k start vs) live → vs.length ≤ 12288 →
    ∃ t, exec .ringTransferComplete s = .next t
      ∧ t.memory.bus = .none
      ∧ t.screens = s.screens ∧ t.bank = s.bank ∧ t.library = s.library ∧ t.alarm = s.alarm ∧ t.port = s.port
      ∧ (∀ i (h : i < vs.length), sdramWord t (65536 + k.val * 12288 + (start + i) % 12288)
          = BitVec.ofInt 32 (vs[i]))
      ∧ (∀ a, (∀ i, i < vs.length → a ≠ 65536 + k.val * 12288 + (start + i) % 12288) →
          sdramWord t a = sdramWord s a)
      ∧ (live = false → t.memory.rings = s.memory.rings ∧ t.engine = s.engine)
      ∧ ∀ v, live = true → s.engine.service = some v → t.memory.rings[k] =
          { writeIndex := (s.memory.rings[k].writeIndex + 48) % 12288
            history := if s.memory.rings[k].zeros = 0 then min (s.memory.rings[k].history + 1) 256 else 1
            zeros := 0 }
          ∧ OthersKept k s.memory.rings t.memory.rings

/-- R98, R109, R111, R113: a completed read transfer frees the bus and writes no word. If its period is in service and
waits for it, the channel's 48 read values are the ring's words from the transfer's first position on, placed from
sample `first` on, and 0 elsewhere, and the channel is done with what they give after the ring (R65, R67, R75 to
R77); otherwise the data is discarded. -/
def Sys2Proof.Machine.RingReadSettlesItsChannel : Prop :=
  ∀ (k : Fin 128) start count live s, Running s → s.memory.bus = .ring (.read k start count) live →
    ∃ t, exec .ringTransferComplete s = .next t
      ∧ t = { s with
          memory := { s.memory with bus := .none }
          engine := { s.engine with channels := t.engine.channels, service := t.engine.service } }
      ∧ (live = false → t.engine = s.engine)
      ∧ (∀ v, s.engine.service = some v → (∀ first, v.channels[ringChannel k].stage ≠ .read first) →
          t.engine = s.engine)
      ∧ ∀ v first, live = true → s.engine.service = some v →
          v.channels[ringChannel k].stage = .read first →
          ∃ v' reads, t.engine.service = some v' ∧ v' = { v with channels := v'.channels }
            ∧ OthersKept (ringChannel k) v.channels v'.channels
            ∧ reads.length = 48
            ∧ (∀ i, i < 48 → reads[i]? = some (if first ≤ i ∧ i < first + count
                then wordToSample (sdramWord s (65536 + k.val * 12288 + (start + (i - first)) % 12288)) else 0))
            ∧ (let c := ringChannel k
              let r := s.bank.banks[v.screen][c]
              Finished v c r v.channels[c].post reads v'.channels[c] ∧ OutputSamples v'.channels[c].output
              ∧ OthersKept v.screen s.engine.channels t.engine.channels
              ∧ OthersKept c s.engine.channels[v.screen] t.engine.channels[v.screen]
              ∧ t.engine.channels[v.screen][c] = { s.engine.channels[v.screen][c] with
                  clip := (s.engine.channels[v.screen][c]).clip
                    || (outputStage v.channels[c].fade r.invert (combinedGain r.trim v.gain v.factor) reads).2 })

/-- R58, R61, R77, R109, R110, R111: when a channel's section stage is complete its post-equaliser values are those the
stage makes of its 48 source values, and its section histories are those it leaves. A channel with a delay in the
active bank joins a write transfer of the values at its ring's write index; a channel with none makes a zero write,
and its read is settled at once, whatever its read delay. -/
def Sys2Proof.Machine.SectionStageSettlesTheWrite : Prop :=
  ∀ (c : Fin 16) v s, Running s → s.engine.service = some v → v.channels[c].stage = .sections →
    let r := s.bank.banks[v.screen][c]
    let k := ringOf v.screen c
    let ch := s.engine.channels[v.screen][c]
    let res := sectionStage r ch.histories v.sources[c]
    ∃ t v' joined clips, exec (.sectionStageComplete c) s = .next t ∧ t.engine.service = some v'
      ∧ t = { s with
          engine := { s.engine with channels := t.engine.channels, service := some v' }
          memory := { s.memory with rings := t.memory.rings, ringList := s.memory.ringList ++ joined } }
      ∧ v' = { v with channels := v'.channels } ∧ OthersKept c v.channels v'.channels
      ∧ (v.sources[c].length = 48 → res.values.length = 48)
      ∧ OthersKept v.screen s.engine.channels t.engine.channels
      ∧ OthersKept c s.engine.channels[v.screen] t.engine.channels[v.screen]
      ∧ t.engine.channels[v.screen][c] =
          { ch with histories := res.histories, clip := ch.clip || res.clip || clips }
      ∧ OthersKept k s.memory.rings t.memory.rings
      ∧ (0 < r.delay →
          v'.channels[c] = { v.channels[c] with post := res.values, stage := .write } ∧ clips = false
          ∧ t.memory.rings[k] = s.memory.rings[k] ∧ joined = [.write k s.memory.rings[k].writeIndex res.values])
      ∧ (r.delay = 0 →
          t.memory.rings[k] =
            { writeIndex := (s.memory.rings[k].writeIndex + 48) % 12288
              history := min (s.memory.rings[k].history + 1) 256
              zeros := min (s.memory.rings[k].zeros + 1) 256 }
          ∧ ReadSettled v c r t.memory.rings[k] res.values v'.channels[c] joined clips)

/-- R109, R110, R111: when the write transfer of a channel of the period in service completes, its ring record counts
the write and the channel's read is settled. -/
def Sys2Proof.Machine.WriteSettlesTheRead : Prop :=
  ∀ (c : Fin 16) start v s, Running s → s.engine.service = some v →
    s.memory.bus = .ring (.write (ringOf v.screen c) start v.channels[c].post) true →
    let r := s.bank.banks[v.screen][c]
    let k := ringOf v.screen c
    ∃ t v' joined clips, exec .ringTransferComplete s = .next t ∧ t.engine.service = some v'
      ∧ t = { s with
          engine := { s.engine with channels := t.engine.channels, service := some v' }
          memory := { s.memory with
            bus := .none, sdram := t.memory.sdram, rings := t.memory.rings
            ringList := s.memory.ringList ++ joined } }
      ∧ v' = { v with channels := v'.channels } ∧ OthersKept c v.channels v'.channels
      ∧ OthersKept v.screen s.engine.channels t.engine.channels
      ∧ OthersKept c s.engine.channels[v.screen] t.engine.channels[v.screen]
      ∧ t.engine.channels[v.screen][c] = { s.engine.channels[v.screen][c] with
          clip := (s.engine.channels[v.screen][c]).clip || clips }
      ∧ OthersKept k s.memory.rings t.memory.rings
      ∧ t.memory.rings[k] =
          { writeIndex := (s.memory.rings[k].writeIndex + 48) % 12288
            history := if s.memory.rings[k].zeros = 0 then min (s.memory.rings[k].history + 1) 256 else 1
            zeros := 0 }
      ∧ ReadSettled v c r t.memory.rings[k] v.channels[c].post v'.channels[c] joined clips

/-- R58, R61, R109 to R113: a channel writes what its sections make of its sources when they are complete, its read is
settled when its write is, and the words read, with 0 for what the memory does not hold, make its output. -/
def Obligations.ChannelsPassThroughTheirRings : Prop :=
  SectionStageSettlesTheWrite ∧ WriteSettlesTheRead ∧ RingReadSettlesItsChannel

/-- R103, R99, R108, R97: every step keeps the controller record, every ring record and the SDRAM's contents in form. -/
def Obligations.EveryStepKeepsTheMemory : Prop :=
  ∀ s t, MemoryKept s → step s = .next t → MemoryKept t

/-! ### The library -/

/-- R88, R92: the image of a bank in range carries 1,028 words under the check value the manual gives an empty bank;
an image read back under its own tag and check value is good and gives the bank saved. An image of 1,028 words is good
exactly when the sum of its channel-record words under exclusive-OR with 1,024 and its header's check value are the
slot's, its header's tag is the slot's, its word count 1,024 and its format 1, and in each channel record every
coefficient, the trim and the delay lie in their ranges, no flag stands outside the thirteen, and word 63 is 0. -/
def Obligations.ImageGivesBackItsBank : Prop :=
  (∀ tag b, BankInRange b → (imageOf tag b).length = 1028
    ∧ ∀ slot : Slot, slot.tag = tag → slot.check = (imageOf tag b).getD 2 0 →
        imageGood slot (imageOf tag b) = true ∧ parseBank ((imageOf tag b).drop 4) = b)
  ∧ (imageOf 0 emptyBank).getD 2 0 = 0x400400
  ∧ (∀ (slot : Slot) image, checkValue (image.drop 4) ≠ slot.check → imageGood slot image = false)
  ∧ ∀ (slot : Slot) (image : List Word), image.length = 1028 →
      (imageGood slot image = true ↔
        (image.drop 4).sum ^^^ 1024 = slot.check
        ∧ image.take 4 = [slot.tag, 1024, slot.check, 1]
        ∧ ∀ c : Fin 16,
            let w := fun k => image.getD (4 + 64 * c.val + k) 0
            (∀ k, k < 60 → -134217728 ≤ (w k).toInt ∧ (w k).toInt ≤ 134217727)
            ∧ (w 60).toNat ≤ 1048576 ∧ (w 61).toNat ≤ 12240
            ∧ (∀ i, (w 62).getLsbD i = true → i < 12 ∨ i = 16)
            ∧ w 63 = 0)

/-- R89, R91: the idle engine starts the oldest entry of its queue and asks for its first burst; a save captures the
active bank as it stands, and nothing else changes; an engine that is not idle, or an empty queue, starts nothing. -/
def Obligations.LibraryStartsItsOldestEntry : Prop :=
  ∀ s, Running s →
    (∀ e rest, s.library.progress = none → s.library.queue = e :: rest →
      ∃ t, exec .libraryEntryStart s = .next t
        ∧ t = { s with
            library := { s.library with progress := some 0, buffer := t.library.buffer }
            memory := { s.memory with
              libraryRequest := some { slot := e.slot, number := 1, write := decide (e.task ≠ .load) } } }
        ∧ (e.task = .load → t.library.buffer = s.library.buffer)
        ∧ ∀ tag, e.task = .save tag →
            t.library.buffer.take 2 = [tag, 1024] ∧ t.library.buffer.getD 3 0 = 1
            ∧ t.library.buffer.getD 2 0 = (t.library.buffer.drop 4).sum ^^^ 1024
            ∧ t.library.buffer.drop 4 = bankWords s.bank.banks[e.screen])
    ∧ ((s.library.progress.isSome = true ∨ s.library.queue = []) → exec .libraryEntryStart s = .next s)

/-- R107, R91, R93: a completed write burst leaves its words in its slot and every other word as it was; a completed
read burst writes no word and leaves the words of its burst in the transfer buffer, unless the transfer has been
abandoned; with bursts left the next is asked for; after the 33rd of a save the slot is VALID with the entry's tag
and LIBRARY_DONE is raised; the completion of a discarded load's burst takes its entry from the queue, frees the bus
and asks for nothing. -/
def Sys2Proof.Machine.BurstsCarryTheTransfer : Prop :=
  (∀ b words live first s, Running s → s.memory.bus = .burst b words live → b.write = true →
    ∃ t, exec (.libraryBurstComplete first) s = .next t
      ∧ (∀ i (h : i < words.length), sdramWord t (burstAddress b + i) = words[i])
      ∧ ∀ a, (a < burstAddress b ∨ burstAddress b + words.length ≤ a) → sdramWord t a = sdramWord s a)
  ∧ (∀ b words live first s, Running s → s.memory.bus = .burst b words live → b.write = false →
      ∃ t, exec (.libraryBurstComplete first) s = .next t ∧ (∀ a, sdramWord t a = sdramWord s a)
        ∧ (live = false → t = { s with memory := { s.memory with bus := .none } })
        ∧ (live = true → 1 ≤ b.number → b.number ≤ 33 → s.library.buffer.length = 1028 →
            t.library.buffer.length = 1028
            ∧ ∀ j, j < 1028 → t.library.buffer[j]? =
                if (b.number = 33 ∧ j < 4)
                  ∨ (b.number < 33 ∧ 4 + (b.number - 1) * 32 ≤ j ∧ j < 4 + b.number * 32)
                then some (sdramWord s (b.slot.val * 1280 + j)) else s.library.buffer[j]?))
  ∧ (∀ b words first s e rest k, Running s → s.memory.bus = .burst b words true →
      s.library.queue = e :: rest → s.library.progress = some k → e.discarded = false → k < 32 →
      ∃ t, exec (.libraryBurstComplete first) s = .next t
        ∧ t.library.queue = s.library.queue ∧ t.library.slots = s.library.slots
        ∧ t.library.progress = some (k + 1)
        ∧ t.memory.libraryRequest = some { slot := e.slot, number := k + 2, write := decide (e.task ≠ .load) }
        ∧ (first = true → t.memory.bus = .none) ∧ t.bank = s.bank ∧ t.mail = s.mail)
  ∧ (∀ b words first s e rest tag, Running s → s.memory.bus = .burst b words true → b.write = true →
      s.library.queue = e :: rest → s.library.progress = some 32 → e.discarded = false → e.task = .save tag →
      ∃ t, exec (.libraryBurstComplete first) s = .next t
        ∧ t.library.queue = rest ∧ t.library.progress = none
        ∧ t.library.slots[e.slot] = { s.library.slots[e.slot] with
            state := .valid, tag := tag, check := s.library.buffer.getD 2 0 }
        ∧ OthersKept e.slot s.library.slots t.library.slots
        ∧ t.mail = { s.mail with alarms :=
            s.mail.alarms ++ [raiseOf { kind := .libraryDone, scope := .device, index := e.slot.val }] })
  ∧ ∀ b words first s e rest k, Running s → s.memory.bus = .burst b words true →
      s.library.queue = e :: rest → s.library.progress = some k → e.discarded = true →
      ∃ t, exec (.libraryBurstComplete first) s = .next t
        ∧ t = { s with
            library := { s.library with
              queue := rest, progress := none, slots := t.library.slots, buffer := t.library.buffer }
            memory := { s.memory with bus := .none, sdram := t.memory.sdram } }
        ∧ (s.memory.libraryRequest = none → t.memory.libraryRequest = none)
        ∧ t.library.slots[e.slot] = { s.library.slots[e.slot] with
            pending := s.library.slots[e.slot].pending - 1 }
        ∧ OthersKept e.slot s.library.slots t.library.slots

/-- R92: after the 33rd burst of a load that serves a port's draft, the draft is EDITABLE with the buffer's bank when
the image is good, and otherwise is removed with LIBRARY_CORRUPT raised; the slot keeps its state, tag and check
value, its pending count falls by 1, and the entry has left the queue. -/
def Sys2Proof.Machine.LoadReachesItsDraft : Prop :=
  ∀ b words first s e rest d p touch, Running s → s.memory.bus = .burst b words true → b.write = false →
    s.library.queue = e :: rest → s.library.progress = some 32 → e.discarded = false → e.task = .load →
    s.bank.drafts[e.screen] = some d → d.state = .loading → d.holder = .port p touch →
    ∃ t image, exec (.libraryBurstComplete first) s = .next t
      ∧ image = t.library.buffer
      ∧ t.library.queue = rest ∧ t.library.progress = none
      ∧ t.library.slots[e.slot] = { s.library.slots[e.slot] with
          pending := s.library.slots[e.slot].pending - 1 }
      ∧ OthersKept e.slot s.library.slots t.library.slots
      ∧ t.bank.banks = s.bank.banks ∧ OthersKept e.screen s.bank.drafts t.bank.drafts
      ∧ (imageGood s.library.slots[e.slot] image = true →
          t.bank.drafts[e.screen] = some { d with state := .editable, content := some (parseBank (image.drop 4)) }
          ∧ t.mail = s.mail)
      ∧ (imageGood s.library.slots[e.slot] image = false →
          t.bank.drafts[e.screen] = none
          ∧ t.mail = { s.mail with alarms :=
              s.mail.alarms ++ [raiseOf { kind := .libraryCorrupt, scope := .device, index := e.slot.val }] })

/-- R92, R96, R163: after the 33rd burst of a load that serves a CUE draft, a good image that passes the stability test
becomes the active bank at once on an OFF screen, and on a screen in service makes the draft COMMITTING and marked;
a good image that fails it has the draft removed and UNSTABLE reported; an image that is not good has the draft
removed, CORRUPT reported and LIBRARY_CORRUPT raised. -/
def Sys2Proof.Machine.LoadReachesACueDraft : Prop :=
  ∀ b words first s e rest d cue, Running s → s.memory.bus = .burst b words true → b.write = false →
    s.library.queue = e :: rest → s.library.progress = some 32 → e.discarded = false → e.task = .load →
    s.bank.drafts[e.screen] = some d → d.state = .loading → d.holder = .cue cue →
    ∃ t image, exec (.libraryBurstComplete first) s = .next t
      ∧ image = t.library.buffer
      ∧ t = { s with
          screens := t.screens, bank := t.bank
          library := { s.library with
            queue := rest, progress := none, slots := t.library.slots, buffer := t.library.buffer }
          memory := { s.memory with bus := .none }
          engine := { s.engine with channels := t.engine.channels }
          mail := t.mail }
      ∧ t.library.slots[e.slot] = { s.library.slots[e.slot] with
          pending := s.library.slots[e.slot].pending - 1 }
      ∧ OthersKept e.slot s.library.slots t.library.slots
      ∧ OthersKept e.screen s.bank.drafts t.bank.drafts ∧ OthersKept e.screen s.bank.banks t.bank.banks
      ∧ (imageGood s.library.slots[e.slot] image = true →
          let loaded := parseBank (image.drop 4)
          (BankStable loaded → s.screens[e.screen].state ≠ .off →
            t.bank.drafts[e.screen] = some { d with state := .committing, content := some loaded }
            ∧ t.bank.banks = s.bank.banks ∧ t.mail = s.mail ∧ t.engine = s.engine
            ∧ t.screens[e.screen] = { s.screens[e.screen] with swapMark := true }
            ∧ OthersKept e.screen s.screens t.screens)
          ∧ (BankStable loaded → s.screens[e.screen].state = .off →
            t.bank.drafts[e.screen] = none ∧ t.bank.banks[e.screen] = loaded
            ∧ t.mail = s.mail ∧ t.screens = s.screens
            ∧ OthersKept e.screen s.engine.channels t.engine.channels
            ∧ ∀ c : Fin 16, t.engine.channels[e.screen][c].delayInUse = (loaded[c]).delay
                ∧ t.engine.channels[e.screen][c].target = none)
          ∧ (¬BankStable loaded →
            t.bank.drafts[e.screen] = none ∧ t.bank.banks = s.bank.banks ∧ t.screens = s.screens
            ∧ t.engine = s.engine
            ∧ t.mail = { s.mail with outcomes :=
                s.mail.outcomes ++ [{ screen := e.screen, cue := cue, unstable := true }] }))
      ∧ (imageGood s.library.slots[e.slot] image = false →
          t.bank.drafts[e.screen] = none ∧ t.bank.banks = s.bank.banks ∧ t.screens = s.screens
          ∧ t.engine = s.engine
          ∧ t.mail = { s.mail with
              outcomes := s.mail.outcomes ++ [{ screen := e.screen, cue := cue, unstable := false }]
              alarms := s.mail.alarms ++
                [raiseOf { kind := .libraryCorrupt, scope := .device, index := e.slot.val }] })

/-- R91 to R93, R107: bursts carry saves and loads to their end, and a load's end reaches the draft it serves. -/
def Obligations.LibraryBurstsCarryTheTransfer : Prop :=
  BurstsCarryTheTransfer ∧ LoadReachesItsDraft ∧ LoadReachesACueDraft

/-- R90, R94: SAVE_LIBRARY and ERASE_SLOT are refused while the slot is WRITING or a load of it is pending, a save
also while INITIALISING or with the queue full; a taken save makes the slot WRITING and joins the queue, a taken
erase makes the slot EMPTY; the SDRAM and the drafts are untouched. The order of the refusals is the model's choice
(log entry 47). -/
def Obligations.SaveAndEraseActOnTheDirectory : Prop :=
  ∀ p (k : Fin 48) (n : Fin 8) (tag : Nat) s, Running s →
    let busy := s.library.slots[k].state = .writing ∨ 0 < s.library.slots[k].pending
    (s.memory.state = .initialising →
      exec (.saveLibrary p k.val n.val tag) s = .next { s with port := answeredPorts p (refusal .busy) s.port })
    ∧ (s.memory.state = .ready → busy →
        exec (.saveLibrary p k.val n.val tag) s = .next
          { s with port := answeredPorts p (refusal .slotBusy) s.port })
    ∧ (s.memory.state = .ready → ¬busy → 4 ≤ s.library.queue.length →
        exec (.saveLibrary p k.val n.val tag) s = .next { s with port := answeredPorts p (refusal .busy) s.port })
    ∧ (s.memory.state = .ready → ¬busy → s.library.queue.length < 4 →
        ∃ t, exec (.saveLibrary p k.val n.val tag) s = .next t
          ∧ t = { s with
              library := { s.library with
                slots := t.library.slots
                queue := s.library.queue ++
                  [{ task := .save (BitVec.ofNat 32 tag), slot := k, screen := n, discarded := false }] }
              port := answeredPorts p (answer .accepted []) s.port }
          ∧ t.library.slots[k].state = .writing ∧ t.library.slots[k].pending = s.library.slots[k].pending
          ∧ OthersKept k s.library.slots t.library.slots)
    ∧ (busy → exec (.eraseSlot p k.val) s = .next { s with port := answeredPorts p (refusal .slotBusy) s.port })
    ∧ (¬busy → ∃ t, exec (.eraseSlot p k.val) s = .next t
          ∧ t = { s with
              library := { s.library with slots := t.library.slots }
              port := answeredPorts p (answer .ok []) s.port }
          ∧ t.library.slots[k].state = .empty ∧ OthersKept k s.library.slots t.library.slots)

/-- R87, R89, R90, R93: every step keeps the library queue, the directory and the LOADING drafts in agreement. -/
def Obligations.EveryStepKeepsTheLibrary : Prop :=
  ∀ s t, LibraryKept s → step s = .next t → LibraryKept t


/-! ### Links -/

/-- R22, R188: the bytes that reach a searching receiver follow those its search has not passed over. When their first
sync word 5Eh C3h and the six fields after it end them, a channel count of 1 to 16 starts the packet, and any other
has the fields discarded and the search resume at the byte after that sync word, also when more bytes come with
them. Bytes with no whole header leave what the search has not passed over. A receiver reading a packet is not
disturbed, and bytes that go on past a good channel count are no search's (log entries 4 and 34, the model's
choice). -/
def Sys2Proof.Machine.SyncWordStartsAPacket : Prop :=
  ∀ (n : Fin 8) (bytes : List Byte) s, Running s →
    let stream := s.links[n].search ++ bytes
    (s.links[n].reading ≠ none → exec (.syncWordFound n bytes) s = .next s)
    ∧ (∀ i (fields : Vector Byte 6), s.links[n].reading = none → FirstSync stream i →
        stream.drop (i + 2) = fields.toList →
        ∃ t, exec (.syncWordFound n bytes) s = .next t ∧ t = { s with links := t.links }
          ∧ OthersKept n s.links t.links
          ∧ (1 ≤ fields[5].toNat → fields[5].toNat ≤ 16 →
              t.links[n] = { s.links[n] with reading := some fields, search := [] })
          ∧ ((fields[5].toNat = 0 ∨ 16 < fields[5].toNat) →
              ∃ left, t.links[n] = { s.links[n] with search := left } ∧ Unpassed fields.toList left))
    ∧ (s.links[n].reading = none → (∀ i, FirstSync stream i → stream.length < i + 8) →
        ∃ t left, exec (.syncWordFound n bytes) s = .next t ∧ t = { s with links := t.links }
          ∧ OthersKept n s.links t.links
          ∧ t.links[n] = { s.links[n] with search := left } ∧ Unpassed stream left)
    ∧ (∀ i (fields : Vector Byte 6) more, s.links[n].reading = none → FirstSync stream i →
        stream.drop (i + 2) = fields.toList → (fields[5].toNat = 0 ∨ 16 < fields[5].toNat) →
        ∃ u, exec (.syncWordFound n bytes) s = .next u
          ∧ (exec (.syncWordFound n (bytes ++ more)) s = exec (.syncWordFound n more) u
            ∨ exec (.syncWordFound n (bytes ++ more)) s = .next s ∧ exec (.syncWordFound n more) u = .next u))
    ∧ ∀ i (fields : Vector Byte 6) more, s.links[n].reading = none → FirstSync stream i →
        stream.drop (i + 2) = fields.toList ++ more → more ≠ [] → 1 ≤ fields[5].toNat → fields[5].toNat ≤ 16 →
        exec (.syncWordFound n bytes) s = .next s

/-- R23, R31: a packet whose check value differs is discarded without an alarm, and one with another tag with
LINK_MISMATCH raised unless the screen is OFF; either way the receiver searches on and its record is otherwise as
before. -/
def Sys2Proof.Machine.BadPacketsCountForNothing : Prop :=
  ∀ (n : Fin 8) (fields : Vector Byte 6) rest s, Running s → s.links[n].reading = some fields →
    rest.length = remainingLength fields →
    ((crc16 (coveredBytes fields rest)).toNat ≠ carriedCheck rest →
      ∃ t, exec (.packetArrival n rest) s = .next t ∧ t = { s with links := t.links }
        ∧ t.links[n] = { s.links[n] with reading := none } ∧ OthersKept n s.links t.links)
    ∧ ((crc16 (coveredBytes fields rest)).toNat = carriedCheck rest →
        fields[0].toNat ≠ s.decoder[n].profile.tag →
      ∃ t, exec (.packetArrival n rest) s = .next t
        ∧ t = { s with links := t.links, mail := { s.mail with alarms := t.mail.alarms } }
        ∧ t.mail.alarms = s.mail.alarms ++ (if s.screens[n].state = .off then []
            else [raiseOf { kind := .linkMismatch, scope := .screen n, index := 0 }])
        ∧ t.links[n] = { s.links[n] with reading := none } ∧ OthersKept n s.links t.links)

/-- R22, R23: a packet is received from its sync word on and counts only with the right check value and tag. -/
def Obligations.PacketsAreCheckedFirst : Prop :=
  SyncWordStartsAPacket ∧ BadPacketsCountForNothing

/-- R23, R24, R25, R27, R30, R31, R32: a good packet sets the expected position and the quiet count, and then starts an
acquisition from DOWN, counts toward lock or restarts the count in ACQUIRING, locks at the eighth with START
pending, joins the queue in LOCKED or is lost with LINK_OVERRUN when it holds 4, replaces the queue on an OFF
screen, and ends a holdover. Every change of state is reported. -/
def Obligations.GoodPacketsMoveTheLink : Prop :=
  ∀ (n : Fin 8) (fields : Vector Byte 6) rest s, Running s → GoodPacket n fields rest s →
    ∃ t q, exec (.packetArrival n rest) s = .next t
      ∧ t = { s with links := t.links, mail := { s.mail with links := t.mail.links, alarms := t.mail.alarms } }
      ∧ OthersKept n s.links t.links
      ∧ q = readPacket fields rest
      ∧ (let l := s.links[n]
        let g := { l with reading := none, expected := q.position + 48, quiet := 0 }
        let reported := fun st => t.mail.links = s.mail.links ++ [(n, st)]
        let silent := t.mail.links = s.mail.links
        (l.state = .down → t.links[n] = { g with state := .acquiring, acquisition := 1 } ∧ reported .acquiring
          ∧ t.mail.alarms = s.mail.alarms)
        ∧ (l.state = .acquiring → q.position ≠ l.expected → t.links[n] = { g with acquisition := 1 } ∧ silent
          ∧ t.mail.alarms = s.mail.alarms)
        ∧ (l.state = .acquiring → q.position = l.expected → l.acquisition ≠ 7 →
            t.links[n] = { g with acquisition := l.acquisition + 1 } ∧ silent ∧ t.mail.alarms = s.mail.alarms)
        ∧ (l.state = .acquiring → q.position = l.expected → l.acquisition = 7 →
            t.links[n] = { g with
              state := .locked, acquisition := 8, queue := [q], startPending := true, lossReported := false }
            ∧ reported .locked
            ∧ t.mail.alarms = s.mail.alarms ++ (if l.lossReported = true then
                [absenceOf { kind := .linkLost, scope := .screen n, index := 0 }] else []))
        ∧ (l.state = .locked → s.screens[n].state = .off → t.links[n] = { g with queue := [q] } ∧ silent
          ∧ t.mail.alarms = s.mail.alarms)
        ∧ (l.state = .locked → s.screens[n].state ≠ .off → l.queue.length < 4 →
            t.links[n] = { g with queue := l.queue ++ [q] } ∧ silent ∧ t.mail.alarms = s.mail.alarms)
        ∧ (l.state = .locked → s.screens[n].state ≠ .off → 4 ≤ l.queue.length →
            t.links[n] = g ∧ silent
            ∧ t.mail.alarms = s.mail.alarms ++
                [raiseOf { kind := .linkOverrun, scope := .screen n, index := 0 }])
        ∧ (l.state = .holdover →
            t.links[n] = { g with state := .locked, missed := 0, queue := l.queue ++ [q] } ∧ reported .locked
            ∧ t.mail.alarms = s.mail.alarms))

/-- R28, R29, R33, R34, R35: a take in LOCKED hands out the oldest packet, or with none a substitute and HOLDOVER; in
HOLDOVER a substitute, the 32nd of which loses the link; in DOWN or ACQUIRING nothing. Every range is 48 positions
from the packet's or from the last position plus 48, and its advance is START while START is pending, and
otherwise CONTIGUOUS, JUMP_FORWARD or JUMP_BACKWARD as its position is equal to, above or below the last position
plus 48. -/
def Obligations.TakesHandOutRanges : Prop :=
  ∀ (n : Fin 8) s,
    let l := s.links[n]
    let kindOf := fun (p : Word) => if l.startPending = true then AdvanceKind.start
      else if p = l.lastPosition + 48 then .contiguous
      else if l.lastPosition + 48 < p then .jumpForward else .jumpBackward
    let t := (takeInput n s).1
    let content := (takeInput n s).2
    (∀ q rest, l.state = .locked → l.queue = q :: rest →
      content = { mark := .packet q.silent, packet := some q }
      ∧ t.links[n] = { l with
          queue := rest, takenCount := q.count, takenSilent := q.silent, lastPosition := q.position
          startPending := false, known := true }
      ∧ t.mail = { s.mail with advances :=
          s.mail.advances ++ [{ screen := n, first := q.position, kind := kindOf q.position }] })
    ∧ (l.state = .locked → l.queue = [] →
      content = { mark := .substitute, packet := none }
      ∧ t.links[n] = { l with
          state := .holdover, missed := 1, lastPosition := l.lastPosition + 48, startPending := false, known := true }
      ∧ t.mail = { s.mail with
          links := s.mail.links ++ [(n, .holdover)]
          advances := s.mail.advances ++
            [{ screen := n, first := l.lastPosition + 48, kind := kindOf (l.lastPosition + 48) }] })
    ∧ (l.state = .holdover → l.missed < 31 →
      content = { mark := .substitute, packet := none }
      ∧ t.links[n] = { l with
          missed := l.missed + 1, lastPosition := l.lastPosition + 48, startPending := false, known := true }
      ∧ t.mail = { s.mail with advances := s.mail.advances ++
          [{ screen := n, first := l.lastPosition + 48, kind := kindOf (l.lastPosition + 48) }] })
    ∧ (l.state = .holdover → l.missed = 31 →
      content = { mark := .substitute, packet := none }
      ∧ t.links[n] = { l with
          state := .down, queue := [], acquisition := 0, missed := 0, lastPosition := l.lastPosition + 48
          startPending := false, known := false, lossReported := true }
      ∧ t.mail = { s.mail with
          links := s.mail.links ++ [(n, .down)]
          alarms := s.mail.alarms ++ [raiseOf { kind := .linkLost, scope := .screen n, index := 0 }]
          advances := s.mail.advances ++
            [{ screen := n, first := l.lastPosition + 48, kind := kindOf (l.lastPosition + 48) }] })
    ∧ ((l.state = .down ∨ l.state = .acquiring) → t = s ∧ content = { mark := .noLink, packet := none })
    ∧ t = { s with links := t.links, mail := t.mail } ∧ OthersKept n s.links t.links

/-- R21, R24, R25, R29, R31: every step keeps each receiver record as its link state says. -/
def Sys2Proof.Machine.EveryStepKeepsTheLinks : Prop :=
  ∀ s t, LinksKept s → step s = .next t → LinksKept t

/-! ### The engine -/

/-- R15, R16, R17, R18: the free engine goes to the first waiting screen after the one served last. A screen that owes
a block runs a skipped period, which takes from its link as a processed period does (by the noted link state in
FALLBACK: log entry 13), its advance sent, and ends at once with its block discarded, its rings restarted, and
channels and steering as they stood but for the staged changes; any other runs a processed period in the state then in
force. A busy engine, or no screen waiting, starts nothing. -/
def Sys2Proof.Machine.ArbiterTakesTheFirstWaiting : Prop :=
  ∀ s, Running s →
    (s.engine.service ≠ none → exec .periodStart s = .next s)
    ∧ ((∀ n : Fin 8, waiting s n = false) → exec .periodStart s = .next s)
    ∧ ∀ (n : Fin 8), AccountsKept s → s.engine.service = none → waiting s n = true →
      (∀ m : Fin 8, waiting s m = true → (n - s.engine.lastServed - 1).val ≤ (m - s.engine.lastServed - 1).val) →
      ∃ t, exec .periodStart s = .next t
        ∧ t.engine.lastServed = n
        ∧ OthersKept n s.screens t.screens ∧ OthersKept n s.links t.links ∧ OthersKept n s.bank.banks t.bank.banks
        ∧ t.meter = s.meter ∧ t.alarm = s.alarm ∧ t.cue = s.cue ∧ t.relay = s.relay ∧ t.port = s.port
        ∧ t.library = s.library ∧ t.memory.sdram = s.memory.sdram
        ∧ t.decoder[n].staged = none
        ∧ t.decoder[n].profile = s.decoder[n].staged.getD s.decoder[n].profile
        ∧ (∀ d b, s.bank.drafts[n] = some d → d.state = .committing → d.content = some b → t.bank.banks[n] = b)
        ∧ (0 < s.screens[n].owed →
            t.engine.service = none
            ∧ t.screens[n] = { s.screens[n] with
                swapMark := false, profileMark := false, formatMark := false
                owed := s.screens[n].owed - 1, outstanding := s.screens[n].outstanding - 1 }
            ∧ (∀ k : Fin 128, t.memory.rings[k] = if k.val / 16 = n.val
                then { s.memory.rings[k] with history := 0, zeros := 0 } else s.memory.rings[k])
            ∧ t = { s with
                screens := t.screens, links := t.links, decoder := t.decoder, bank := t.bank
                memory := { s.memory with rings := t.memory.rings }
                engine := { s.engine with channels := t.engine.channels, lastServed := n }
                mail := t.mail }
            ∧ (let took := (takeInput n s).1
              let takes := s.screens[n].state = .playing
                ∨ s.screens[n].state = .fallback
                  ∧ (s.screens[n].notedLink = .locked ∨ s.screens[n].notedLink = .holdover)
              (takes → t.links = took.links ∧ t.mail = took.mail)
              ∧ (¬takes → t.links = s.links ∧ t.mail = s.mail))
            ∧ OthersKept n s.decoder t.decoder ∧ SteeringCarries s.decoder[n] t.decoder[n]
            ∧ OthersKept n s.engine.channels t.engine.channels
            ∧ ∀ c : Fin 16,
                t.engine.channels[n][c] = { s.engine.channels[n][c] with
                  histories := (t.engine.channels[n][c]).histories }
                ∧ HistoriesCarry s.bank.banks[n][c] t.bank.banks[n][c] s.engine.channels[n][c] t.engine.channels[n][c])
        ∧ (s.screens[n].owed = 0 →
            t.screens[n] = { s.screens[n] with swapMark := false, profileMark := false, formatMark := false }
            ∧ t.memory = s.memory
            ∧ ∃ v, t.engine.service = some v ∧ v.screen = n ∧ v.state = s.screens[n].state
              ∧ v.gain = s.gain.levels[n].gain ∧ v.factor = s.gain.levels[n].factor)

/-- R16, R37, R44 to R46, R48 to R54, R56, R62, R64: a processed period that plays, or that falls back with a link
that carries by the state the Screen Controller has noted (log entry 13, an inference), takes from its link, and its
inputs are the packet's channels or silence; any other has no link and silence. Each source is what its selector gives
in the state of the period: the link's channel, an output of the active decoder, which has updated its steering with
this period, an output of the passive decoder on the latest backup period, or silence. Sections newly in use start
from rest, and each channel's read delay and fade are settled. -/
def Sys2Proof.Machine.ProcessedPeriodsReadTheirContent : Prop :=
  ∀ (n : Fin 8) s, Running s → s.engine.service = none → waiting s n = true → s.screens[n].owed = 0 →
    (∀ m : Fin 8, waiting s m = true → (n - s.engine.lastServed - 1).val ≤ (m - s.engine.lastServed - 1).val) →
    let st := s.screens[n].state
    let old := s.decoder[n].profile
    let p := s.decoder[n].staged.getD old
    let took := takeInput n s
    let takes := st = .playing
      ∨ st = .fallback ∧ (s.screens[n].notedLink = .locked ∨ s.screens[n].notedLink = .holdover)
    let silent := List.replicate 48 (0 : Sample)
    ∃ t v, exec .periodStart s = .next t ∧ t.engine.service = some v ∧ v.state = st
      ∧ t = { s with
          screens := t.screens, links := t.links, decoder := t.decoder, bank := t.bank
          engine := { s.engine with channels := t.engine.channels, lastServed := n, service := some v }
          mail := t.mail }
      -- content and inputs
      ∧ (takes → v.mark = took.2.mark ∧ t.links = took.1.links ∧ t.mail = took.1.mail
          ∧ (took.2.packet = none → ∀ c : Fin 16, v.inputs[c] = silent)
          ∧ ∀ q, took.2.packet = some q → ∀ c : Fin 16, v.inputs[c].length = 48
              ∧ ∀ f, f < 48 → (v.inputs[c])[f]? =
                  some (if c.val < q.count then q.samples.getD (f * q.count + c.val) 0 else 0))
      ∧ (¬takes → v.mark = .noLink ∧ t.links = s.links ∧ t.mail = s.mail ∧ ∀ c : Fin 16, v.inputs[c] = silent)
      -- steering
      ∧ OthersKept n s.decoder t.decoder ∧ t.decoder[n].profile = p ∧ t.decoder[n].staged = none
      ∧ (let before := if p.mode ≠ old.mode ∨ p.lt ≠ old.lt ∨ p.rt ≠ old.rt
            then { el := 0, er := 0, es := 0, ed := 0, lr := 0, fb := 0 } else s.decoder[n].steering
        ((st = .playing ∧ p.mode = .matrix) → SteeringMoves before v.inputs[p.lt] v.inputs[p.rt] t.decoder[n].steering)
        ∧ (¬(st = .playing ∧ p.mode = .matrix) → t.decoder[n].steering = before))
      -- sources
      ∧ (∀ c : Fin 16,
          let sel := p.table[c]
          let fb := t.decoder[n].steering.fb
          let lr := t.decoder[n].steering.lr
          let depth : Int := p.depth
          (st = .playing → ∀ i, sel = .link i → v.sources[c] = v.inputs[i])
          ∧ (sel = .silent → v.sources[c] = silent)
          ∧ (st = .playing → p.mode = .discrete → IsDec sel → v.sources[c] = silent)
          ∧ (st = .playing → p.mode = .matrix → IsDec sel →
              MatrixOutput (Int.fdiv (max 0 fb * depth) 4) (Int.fdiv (max 0 (-fb) * depth) 4)
                (Int.fdiv ((lr.natAbs : Int) * depth) 8) (Int.fdiv (max 0 fb * depth) 8)
                v.inputs[p.lt] v.inputs[p.rt] sel v.sources[c])
          ∧ (st = .fallback → ¬IsDec sel → v.sources[c] = silent)
          ∧ (st = .fallback → IsDec sel → s.engine.backup = [] → v.sources[c] = silent)
          ∧ (∀ b, st = .fallback → IsDec sel → s.engine.backup.getLast? = some b →
              MatrixOutput 0 0 0 0 (b.map Prod.fst) (b.map Prod.snd) sel v.sources[c])
          ∧ (st = .ready → v.sources[c] = silent))
      -- banks and channels
      ∧ OthersKept n s.engine.channels t.engine.channels
      ∧ (∀ c : Fin 16,
          let ch := s.engine.channels[n][c]
          let ch' := t.engine.channels[n][c]
          let settled := settleDelay (t.bank.banks[n][c]).delay ch
          v.channels[c] =
            { readDelay := settled.1, fade := settled.2.1, stage := .sections, post := [], output := [] }
          ∧ ch'.delayInUse = settled.2.2.delayInUse ∧ ch'.target = settled.2.2.target ∧ ch'.clip = false
          ∧ HistoriesCarry s.bank.banks[n][c] t.bank.banks[n][c] ch ch')

/-- R15 to R18, R45, R46: periods start in rotation, and a processed period reads its link's or the backup input's
content as its profile says, one in FALLBACK taking from the link by the noted link state (log entry 13, DEDUCED); the
steering gains are those of the updated steering (R48 to R54), and a read delay is settled at the start (R64). -/
def Obligations.PeriodsStartInRotation : Prop :=
  ArbiterTakesTheFirstWaiting ∧ ProcessedPeriodsReadTheirContent

/-- R17, R77, R117 to R122, R126 to R129: the period whose every channel is done ends. Each meter takes its period peak
and its value; an output meter counts the clip mark of its channel; each watch moves by its meter's new values, input
watches by the content's mark; each watch that changed state is reported, and one CLIP event is raised for each
channel with its mark set, in this order. The engine is free, and the block joins the queue, or is discarded when one
is owed, or brings a screen with OFF pending into OFF, its watches clear. A period not done does not end. -/
def Obligations.PeriodEndPlacesItsBlock : Prop :=
  ∀ v s, Running s → s.engine.service = some v →
    let n := v.screen
    let marked := fun c : Fin 16 => (s.engine.channels[n][c]).clip
    ((∃ c : Fin 16, v.channels[c].stage ≠ .done) → exec .periodEnd s = .next s)
    ∧ ((∀ c : Fin 16, v.channels[c].stage = .done) →
      ∃ (t : State) (ws : Vector Watch 32) (sent : List AlarmReport), exec .periodEnd s = .next t
        ∧ t.engine.service = none
        ∧ OthersKept n s.screens t.screens
        ∧ OthersKept n s.meter.meters t.meter.meters ∧ OthersKept n s.meter.watches t.meter.watches
        ∧ t.memory = s.memory ∧ t.alarm = s.alarm ∧ t.cue = s.cue ∧ t.library = s.library
        ∧ t.meter.shift = s.meter.shift ∧ t.relay = s.relay ∧ t.port = s.port
        -- meters
        ∧ (∀ i : Fin 32,
            let m := s.meter.meters[n][i]
            let m' := t.meter.meters[n][i]
            (m.value = 0 → m'.value = m'.peak)
            ∧ (0 < m.value → m'.value = max m'.peak (m.value - max 1 (m.value / 2 ^ s.meter.shift)))
            ∧ ∀ c : Fin 16,
                (i.val = c.val → m'.clips = m.clips
                  ∧ (∀ x ∈ v.inputs[c], x.natAbs ≤ m'.peak)
                  ∧ (m'.peak = 0 ∨ ∃ x ∈ v.inputs[c], x.natAbs = m'.peak))
                ∧ (i.val = c.val + 16 →
                  m'.clips = (if marked c = true then min (m.clips + 1) 65535 else m.clips)
                  ∧ (∀ x ∈ v.channels[c].output, x.natAbs ≤ m'.peak)
                  ∧ (m'.peak = 0 ∨ ∃ x ∈ v.channels[c].output, x.natAbs = m'.peak)))
        -- watches and reports
        ∧ (∀ i : Fin 32, WatchMoves
            (decide (i.val < 16 ∧ (v.mark = .packet true ∨ v.mark = .substitute ∨ v.mark = .noLink)))
            t.meter.meters[n][i] s.meter.watches[n][i] ws[i])
        ∧ (∀ i : Fin 32, t.meter.watches[n][i] =
            if s.screens[n].offPending = true then { ws[i] with run := 0, raised := false } else ws[i])
        ∧ t.mail.alarms = s.mail.alarms
            ++ ((List.finRange 32).filterMap fun (i : Fin 32) =>
                let w := s.meter.watches[n][i]
                if w.raised = ws[i].raised then none
                else some
                  { id := { kind := if w.kind = .over then .over else .silence, scope := .screen n, index := i.val }
                    raise := ws[i].raised, action := w.action, atOff := false })
            ++ ((List.finRange 16).filterMap fun (c : Fin 16) => if marked c = true
                then some (raiseOf { kind := .clip, scope := .screen n, index := c.val }) else none)
            ++ sent
        -- the block
        ∧ (s.screens[n].offPending = true →
            t.screens[n].state = .off ∧ t.screens[n].queue = []
            ∧ t.screens[n].outstanding = 0 ∧ t.screens[n].owed = 0
            ∧ ∀ r ∈ sent, r.raise = false ∧ r.id.scope = .screen n)
        ∧ (s.screens[n].offPending = false →
            sent = []
            ∧ t = { s with
                screens := t.screens, engine := { s.engine with service := none }, meter := t.meter
                mail := { s.mail with alarms := t.mail.alarms } })
        ∧ (s.screens[n].offPending = false → 0 < s.screens[n].owed →
            t.screens[n] = { s.screens[n] with
              owed := s.screens[n].owed - 1, outstanding := s.screens[n].outstanding - 1 })
        ∧ (s.screens[n].offPending = false → s.screens[n].owed = 0 →
            ∃ block : Block, (∀ c : Fin 16, block[c] = v.channels[c].output)
            ∧ t.screens[n] = { s.screens[n] with
                queue := s.screens[n].queue ++ [block]
                outstanding := s.screens[n].outstanding - 1 }))

/-- R60, R61, R65, R67, R75, R76: a section keeps its values within the internal range, a fade ends at the value or at
0, and the stages after the ring leave 48 samples within the range of the output ports, whatever they are given. -/
def Sys2Proof.Machine.ChainStaysInRange : Prop :=
  (∀ f h xs, (runSection f h xs).1.length = xs.length
    ∧ ∀ y ∈ (runSection f h xs).1, -134217728 ≤ y ∧ y ≤ 134217727)
  ∧ (∀ x : Int, fadeSample .none 0 x = x ∧ fadeSample .fadeIn 47 x = x ∧ fadeSample .fadeOut 47 x = 0)
  ∧ (∀ f i (x : Int), i < 48 → (fadeSample f i x).natAbs ≤ x.natAbs)
  ∧ ∀ f inv g vs, OutputSamples (outputStage f inv g vs).1

/-- R60, R61, R65, R67, R75, R76, R77: the arithmetic of the chain. A section takes the exact sum of its products over
2^24, halves upward, saturates it to its output and moves its history on, and says whether the saturation changed a
value; the sections in use run in index order, the others are passed over, and a unity section changes no value. A
fade scales with truncation. After it a sample is negated when the channel inverts, and saturated; multiplied by the
combined gain over 2^18, halves upward, and saturated; and saturated to the output range. -/
def Sys2Proof.Machine.ChainFollowsItsFormulas : Prop :=
  let internal := fun x : Int => max (-134217728) (min 134217727 x)
  (∀ f h, runSection f h [] = ([], h, false))
  ∧ (∀ f h x xs,
      let raw := Int.fdiv
        (f.b0 * x + f.b1 * h.x1 + f.b2 * h.x2 - f.a1 * h.y1 - f.a2 * h.y2 + 8388608) 16777216
      let rest := runSection f { x1 := x, x2 := h.x1, y1 := internal raw, y2 := h.y1 } xs
      runSection f h (x :: xs)
        = (internal raw :: rest.1, rest.2.1, decide (internal raw ≠ raw) || rest.2.2))
  ∧ (∀ f h xs, f.b0 = 16777216 → f.b1 = 0 → f.b2 = 0 → f.a1 = 0 → f.a2 = 0 →
      (∀ x ∈ xs, -134217728 ≤ x ∧ x ≤ 134217727) →
      (runSection f h xs).1 = xs ∧ (runSection f h xs).2.2 = false)
  ∧ (∀ (r : ChannelRecord) (k : Fin 12) acc, r.sections[k].inUse = false → applySection r k acc = acc)
  ∧ (∀ (r : ChannelRecord) (k : Fin 12) acc, r.sections[k].inUse = true →
      let ran := runSection r.sections[k] acc.histories[k] acc.values
      (applySection r k acc).values = ran.1 ∧ (applySection r k acc).clip = (acc.clip || ran.2.2)
      ∧ (applySection r k acc).histories[k] = ran.2.1
      ∧ OthersKept k acc.histories (applySection r k acc).histories)
  ∧ (∀ r hs xs, sectionStage r hs xs =
      ([0, 1, 2, 3, 4, 5, 6, 7, 8, 9, 10, 11] : List (Fin 12)).foldl (fun acc k => applySection r k acc)
        { values := xs, histories := hs, clip := false })
  ∧ (∀ i (x : Int), fadeSample .fadeOut i x = Int.tdiv (x * (47 - i)) 48
      ∧ fadeSample .fadeIn i x = Int.tdiv (x * (i + 1)) 48)
  ∧ (∀ trim gain factor, combinedGain trim gain factor = trim * gain / 262144 * factor / 8)
  ∧ (∀ fade invert (g i : Nat) (x : Int),
      let faded := fadeSample fade i x
      let turned := if invert = true then -faded else faded
      let scaled := Int.fdiv (internal turned * g + 131072) 262144
      let y := max (-8388608) (min 8388607 (internal scaled))
      outputSample fade invert g i x = (y, decide (internal turned ≠ turned) || decide (internal scaled ≠ scaled)
        || decide (y ≠ internal scaled)))
  ∧ ∀ fade invert g vs,
      (∀ i, i < 48 →
        (outputStage fade invert g vs).1[i]? = some (outputSample fade invert g i (vs.getD i 0)).1)
      ∧ ((outputStage fade invert g vs).2 = true
        ↔ ∃ i, i < 48 ∧ (outputSample fade invert g i (vs.getD i 0)).2 = true)

/-- R64: the settling of a channel's delay at a period's start. -/
def Sys2Proof.Machine.DelaySlewsThroughSilence : Prop :=
  ∀ d (ch : ChannelState),
    (ch.target = none → d = ch.delayInUse → settleDelay d ch = (d, .none, ch))
    ∧ (ch.target = none → d ≠ ch.delayInUse →
        settleDelay d ch = (ch.delayInUse, .fadeOut, { ch with target := some d }))
    ∧ (ch.target = some d → settleDelay d ch = (d, .fadeIn, { ch with delayInUse := d, target := none }))
    ∧ (∀ t, ch.target = some t → d ≠ t → d = ch.delayInUse →
        settleDelay d ch = (d, .none, { ch with target := none }))
    ∧ ∀ t, ch.target = some t → d ≠ t → d ≠ ch.delayInUse →
        settleDelay d ch = (ch.delayInUse, .fadeOut, { ch with target := some d })

/-- R50, R51, R52: in any update an index moves by at most 4, a target is in [-64, 64] and an index that was in
[-64, 64] stays there, and equal channels steer the left-right target to 0. -/
def Sys2Proof.Machine.SteeringStaysBounded : Prop :=
  (∀ st lt rt, ((steer st lt rt).lr - st.lr).natAbs ≤ 4 ∧ ((steer st lt rt).fb - st.fb).natAbs ≤ 4)
  ∧ (∀ a b, -64 ≤ steeringTarget a b ∧ steeringTarget a b ≤ 64)
  ∧ (∀ st lt rt, -64 ≤ st.lr → st.lr ≤ 64 → -64 ≤ (steer st lt rt).lr ∧ (steer st lt rt).lr ≤ 64)
  ∧ (∀ st lt rt, -64 ≤ st.fb → st.fb ≤ 64 → -64 ≤ (steer st lt rt).fb ∧ (steer st lt rt).fb ≤ 64)
  ∧ ∀ a, steeringTarget a a = 0

/-- R50 to R52, R60, R61, R64, R65, R67, R75, R76: the engine's stages compute what their formulas give, which stays
within its range, and a change of delay passes through silence. -/
def Obligations.EngineStagesStayInRange : Prop :=
  ChainFollowsItsFormulas ∧ ChainStaysInRange ∧ DelaySlewsThroughSilence ∧ SteeringStaysBounded

/-- R2, R76: every step keeps every queued block, every block being sent and every finished channel within the range
of the output ports. -/
def Obligations.EveryStepKeepsOutputsInRange : Prop :=
  ∀ s t, OutputsInRange s → step s = .next t → OutputsInRange t


/-! ### Profile and gain -/

/-- R40, R41, R42, R44: a taken SET_PROFILE, of either mode and either auto-return flag, or SET_SOURCE, of any
selector, is in effect at once on an OFF screen and answered OK, and on a screen in service goes to the staged
profile, marked, and is answered ACCEPTED; a depth above 8 is taken as 8 with CLAMPED; a tag, mode, channel, flag or
selector that is none, or a matrix pair of one channel, is refused. -/
def Obligations.ProfileChangesTakeEffectOrAreStaged : Prop :=
  (∀ p (n : Fin 8) tag (mode auto : Fin 2) (lt rt : Fin 16) depth s, Running s → tag ≤ 255 → lt ≠ rt →
    let old := s.decoder[n].profile
    let named := fun base : Profile =>
      { base with
        tag := tag, mode := if mode.val = 0 then .discrete else .matrix, lt := lt, rt := rt
        depth := min depth 8, autoReturn := decide (auto.val = 1) }
    ∃ t, exec (.setProfile p n.val tag mode.val lt.val rt.val depth auto.val) s = .next t
    ∧ t = { s with
        screens := t.screens, decoder := t.decoder
        port := answeredPorts p
          { status := if s.screens[n].state = .off then .ok else .accepted, clamped := decide (8 < depth), data := [] }
          s.port }
    ∧ OthersKept n s.screens t.screens ∧ OthersKept n s.decoder t.decoder
    ∧ (s.screens[n].state = .off → t.screens = s.screens
        ∧ t.decoder[n] =
          { profile := named old, staged := none
            steering := if (named old).mode ≠ old.mode ∨ lt ≠ old.lt ∨ rt ≠ old.rt
              then { el := 0, er := 0, es := 0, ed := 0, lr := 0, fb := 0 } else s.decoder[n].steering })
    ∧ (s.screens[n].state ≠ .off → t.screens[n] = { s.screens[n] with profileMark := true }
        ∧ t.decoder[n] = { s.decoder[n] with staged := some (named (s.decoder[n].staged.getD old)) }))
  ∧ (∀ p (n : Fin 8) tag mode lt rt depth auto s, Running s →
      (255 < tag ∨ 1 < mode ∨ 16 ≤ lt ∨ 16 ≤ rt ∨ lt = rt ∨ 1 < auto) →
      exec (.setProfile p n.val tag mode lt rt depth auto) s
        = .next { s with port := answeredPorts p (refusal .badArgument) s.port })
  ∧ (∀ p (n : Fin 8) (c : Fin 16) code link sel s, Running s → SelectorCode code link sel → ∃ t,
      exec (.setSource p n.val c.val code link) s = .next t
      ∧ t = { s with
          screens := t.screens, decoder := t.decoder
          port := answeredPorts p
            (answer (if s.screens[n].state = .off then .ok else .accepted) []) s.port }
      ∧ OthersKept n s.screens t.screens ∧ OthersKept n s.decoder t.decoder
      ∧ (s.screens[n].state = .off → t.screens = s.screens
          ∧ ∃ table, t.decoder[n] =
              { s.decoder[n] with profile := { s.decoder[n].profile with table := table }, staged := none }
            ∧ table[c] = sel ∧ OthersKept c s.decoder[n].profile.table table)
      ∧ (s.screens[n].state ≠ .off → t.screens[n] = { s.screens[n] with profileMark := true }
          ∧ ∃ table,
              let base := s.decoder[n].staged.getD s.decoder[n].profile
              t.decoder[n] = { s.decoder[n] with staged := some { base with table := table } }
              ∧ table[c] = sel ∧ OthersKept c base.table table))
  ∧ ∀ p (n : Fin 8) c selector link s, Running s → (16 ≤ c ∨ 5 < selector ∨ selector = 1 ∧ 16 ≤ link) →
      exec (.setSource p n.val c selector link) s
        = .next { s with port := answeredPorts p (refusal .badArgument) s.port }

/-- R70, R72: SET_LEVEL takes a level of at most 100 and a length of at most 60,000, with CLAMPED beyond; the fader
moves at once with length 0 or on an OFF screen, dropping a ramp in flight, and otherwise by a ramp from the present
gain. MUTE and UNMUTE set the flag, and the factor at once on an OFF screen. Nothing else changes. -/
def Obligations.FaderAndMuteRequests : Prop :=
  (∀ p (n : Fin 8) level length s, Running s → ∃ t target,
    exec (.setLevel p n.val level length) s = .next t
    ∧ t = { s with
        gain := { s.gain with levels := t.gain.levels }
        port := answeredPorts p
          { status := .ok, clamped := decide (100 < level ∨ 60000 < length), data := [] } s.port }
    ∧ OthersKept n s.gain.levels t.gain.levels
    ∧ (∃ k : Fin 101, k.val = min level 100 ∧ target = s.gain.law[k])
    ∧ ((length = 0 ∨ s.screens[n].state = .off) →
        t.gain.levels[n] = { s.gain.levels[n] with level := min level 100, gain := target, ramp := none })
    ∧ (0 < length → s.screens[n].state ≠ .off →
        t.gain.levels[n] = { s.gain.levels[n] with
          level := min level 100
          ramp := some { start := s.gain.levels[n].gain, target := target, length := min length 60000, done := 0 } }))
  ∧ (∀ p (n : Fin 8) s, Running s → ∃ t, exec (.mute p n.val) s = .next t
      ∧ t = { s with gain := { s.gain with levels := t.gain.levels }, port := answeredPorts p (answer .ok []) s.port }
      ∧ OthersKept n s.gain.levels t.gain.levels
      ∧ t.gain.levels[n] = { s.gain.levels[n] with
          muted := true, factor := if s.screens[n].state = .off then 0 else s.gain.levels[n].factor })
  ∧ ∀ p (n : Fin 8) s, Running s → ∃ t, exec (.unmute p n.val) s = .next t
      ∧ t = { s with gain := { s.gain with levels := t.gain.levels }, port := answeredPorts p (answer .ok []) s.port }
      ∧ OthersKept n s.gain.levels t.gain.levels
      ∧ t.gain.levels[n] = { s.gain.levels[n] with
          muted := false, factor := if s.screens[n].state = .off then 8 else s.gain.levels[n].factor }

/-- R69: SET_FADER_LAW is refused with BAD_ARGUMENT without 101 entries of 0..1,048,576, and with BAD_TABLE when an
entry is less than the one before it; otherwise it replaces the table, and no gain moves. That BAD_ARGUMENT goes before
BAD_TABLE is the model's choice (log entry 47). -/
def Obligations.FaderLawIsReplacedWhole : Prop :=
  ∀ p (entries : List Nat) s, Running s →
    ((entries.length ≠ 101 ∨ ∃ e ∈ entries, 1048576 < e) →
      exec (.setFaderLaw p entries) s = .next { s with port := answeredPorts p (refusal .badArgument) s.port })
    ∧ (entries.length = 101 → (∀ e ∈ entries, e ≤ 1048576) →
        (∃ k a b, entries[k]? = some a ∧ entries[k + 1]? = some b ∧ b < a) →
        exec (.setFaderLaw p entries) s = .next { s with port := answeredPorts p (refusal .badTable) s.port })
    ∧ (entries.length = 101 → (∀ e ∈ entries, e ≤ 1048576) →
        (∀ k a b, entries[k]? = some a → entries[k + 1]? = some b → a ≤ b) →
        ∃ t, exec (.setFaderLaw p entries) s = .next t
          ∧ t = { s with gain := { s.gain with law := t.gain.law }, port := answeredPorts p (answer .ok []) s.port }
          ∧ ∀ k : Fin 101, entries[k.val]? = some t.gain.law[k])

/-- R68 to R72: every step keeps the fader law rising and every master level record within its ranges. -/
def Sys2Proof.Machine.EveryStepKeepsTheGain : Prop :=
  ∀ s t, GainKept s → step s = .next t → GainKept t

/-- Every step keeps each receiver record as its link state says (R21 to R31), and the fader law and the master level
records within their ranges (R68 to R72). -/
def Obligations.EveryStepKeepsLinksAndGains : Prop :=
  EveryStepKeepsTheLinks ∧ EveryStepKeepsTheGain

/-! ### Drafts -/

/-- R80, R82: OPEN_DRAFT with no origin of the three is refused with BAD_ARGUMENT and touches nothing. It is refused with
DRAFT_HELD while another holder has the draft, and with BAD_STATE while the port's own is COMMITTING; a LIBRARY
origin is refused with BUSY while the controller is INITIALISING, with SLOT_EMPTY, with SLOT_BUSY, and with BUSY
when the library queue is full, not counting the draft's own load that has not started. A refused request touches
an own draft and changes nothing else. -/
def Sys2Proof.Machine.OpenDraftRefusals : Prop :=
  ∀ p (n : Fin 8) slot s, Running s →
    let touching := fun (st : Status) (t : State) =>
      t = { s with bank := t.bank, port := answeredPorts p (refusal st) s.port }
      ∧ t.bank.banks = s.bank.banks ∧ OthersKept n s.bank.drafts t.bank.drafts
      ∧ t.bank.drafts[n] = s.bank.drafts[n].map fun d => { d with holder := .port p s.system.housePeriods }
    let valid := fun origin => origin = 1 ∨ origin = 2 ∨ origin = 3 ∧ slot < 48
    (∀ origin, ¬valid origin →
      exec (.openDraft p n.val origin slot) s = .next { s with port := answeredPorts p (refusal .badArgument) s.port })
    ∧ (∀ d origin, s.bank.drafts[n] = some d → heldBy p d = false → valid origin →
      exec (.openDraft p n.val origin slot) s = .next { s with port := answeredPorts p (refusal .draftHeld) s.port })
    ∧ (∀ d origin, s.bank.drafts[n] = some d → heldBy p d = true → d.state = .committing → valid origin →
      ∃ t, exec (.openDraft p n.val origin slot) s = .next t ∧ touching .badState t)
    ∧ ∀ k : Fin 48, k.val = slot →
      (∀ d, s.bank.drafts[n] = some d → heldBy p d = true ∧ d.state ≠ .committing) →
      ∃ t, exec (.openDraft p n.val 3 slot) s = .next t
        ∧ (s.memory.state = .initialising → touching .busy t)
        ∧ (s.memory.state = .ready → s.library.slots[k].state = .empty → touching .slotEmpty t)
        ∧ (s.memory.state = .ready → s.library.slots[k].state = .writing → touching .slotBusy t)
        ∧ ∀ q, s.memory.state = .ready → s.library.slots[k].state = .valid → EntriesCounted n s q → 4 ≤ q →
            touching .busy t

/-- R80, R93: over no draft, the port's own EDITABLE draft, or its own LOADING draft, whose load is first removed or
discarded, OPEN_DRAFT creates a draft held by the port and last touched now: from ACTIVE an EDITABLE copy of the
active bank, from EMPTY an EDITABLE empty bank, both answered OK, and from a VALID library slot a LOADING draft with
its load queued, answered ACCEPTED. No active bank changes. -/
def Sys2Proof.Machine.OpenDraftCreations : Prop :=
  ∀ p (n : Fin 8) s, Running s →
    let created := fun (st : DraftState) (o : Origin) (content : Option Bank) (t : State) =>
      t.bank.banks = s.bank.banks ∧ OthersKept n s.bank.drafts t.bank.drafts
      ∧ t.bank.drafts[n] = some
          { holder := .port p s.system.housePeriods, state := st, origin := o, content := content }
    let opened := fun (u : State) =>
      (∀ slot, ∃ t, exec (.openDraft p n.val 1 slot) s = .next t
        ∧ t = { u with bank := t.bank, port := answeredPorts p (answer .ok []) s.port }
        ∧ created .editable .active (some s.bank.banks[n]) t)
      ∧ (∀ slot, ∃ t, exec (.openDraft p n.val 2 slot) s = .next t
        ∧ t = { u with bank := t.bank, port := answeredPorts p (answer .ok []) s.port }
        ∧ created .editable .empty (some emptyBank) t)
      ∧ ∀ (k : Fin 48) q, s.memory.state = .ready → s.library.slots[k].state = .valid → EntriesCounted n s q → q < 4 →
        ∃ t, exec (.openDraft p n.val 3 k.val) s = .next t
          ∧ t = { u with
              bank := t.bank
              library := { u.library with
                slots := t.library.slots
                queue := u.library.queue ++ [{ task := .load, slot := k, screen := n, discarded := false }] }
              port := answeredPorts p (answer .accepted []) s.port }
          ∧ created .loading (.library k) none t
          ∧ t.library.slots[k] = { u.library.slots[k] with pending := u.library.slots[k].pending + 1 }
          ∧ OthersKept k u.library.slots t.library.slots
    ((∀ d, s.bank.drafts[n] = some d → heldBy p d = true ∧ d.state = .editable) → opened s)
    ∧ ∀ d before e after, s.bank.drafts[n] = some d → heldBy p d = true → d.state = .loading →
        IsDraftsLoad n s before e after → ∃ u, LoadDropped before e after s u ∧ opened u

/-- R80, R82, R93: OPEN_DRAFT creates a draft, replacing the port's own, or is refused. -/
def Obligations.OpenDraftCreatesADraft : Prop :=
  OpenDraftRefusals ∧ OpenDraftCreations

/-- R81, R82: an edit with an argument out of range is refused with BAD_ARGUMENT; one of a screen with no draft or by
a port that does not hold it is refused and touches nothing, and one of the holder's LOADING or COMMITTING draft is
refused with BUSY and touches it (the touch of a COMMITTING draft is log entry 41); one of its EDITABLE draft replaces
the section whole, or the trim, delay and polarity with the limits taken and CLAMPED. The active bank is untouched. -/
def Sys2Proof.Machine.EditsChangeTheDraftOnly : Prop :=
  (∀ p (n : Fin 8) (c : Fin 16) (k : Fin 12) (u : Fin 2) (b0 b1 b2 a1 a2 : Int) s, Running s →
    let named : Section := { inUse := decide (u.val = 1), b0 := b0, b1 := b1, b2 := b2, a1 := a1, a2 := a2 }
    let edit := Instr.setSection p n.val c.val k.val u.val b0 b1 b2 a1 a2
    SectionInRange named →
    (s.bank.drafts[n] = none → exec edit s = .next { s with port := answeredPorts p (refusal .badState) s.port })
    ∧ (∀ d, s.bank.drafts[n] = some d → heldBy p d = false →
      exec edit s = .next { s with port := answeredPorts p (refusal .notHolder) s.port })
    ∧ (∀ d, s.bank.drafts[n] = some d → heldBy p d = true → d.state ≠ .editable →
      ∃ t, exec edit s = .next t
        ∧ t = { s with bank := t.bank, port := answeredPorts p (refusal .busy) s.port }
        ∧ t.bank.banks = s.bank.banks ∧ OthersKept n s.bank.drafts t.bank.drafts
        ∧ t.bank.drafts[n] = some { d with holder := .port p s.system.housePeriods })
    ∧ (∀ d b, s.bank.drafts[n] = some d → heldBy p d = true → d.state = .editable → d.content = some b →
      ∃ t b', exec edit s = .next t
        ∧ t = { s with bank := t.bank, port := answeredPorts p (answer .ok []) s.port }
        ∧ t.bank.banks = s.bank.banks ∧ OthersKept n s.bank.drafts t.bank.drafts
        ∧ t.bank.drafts[n] = some { d with holder := .port p s.system.housePeriods, content := some b' }
        ∧ OthersKept c b b' ∧ b'[c] = { b[c] with sections := (b'[c]).sections }
        ∧ (b'[c]).sections[k] = named
        ∧ OthersKept k (b[c]).sections (b'[c]).sections))
  ∧ (∀ p (n : Fin 8) c k u (b0 b1 b2 a1 a2 : Int) s, Running s →
      (16 ≤ c ∨ 12 ≤ k ∨ 1 < u ∨ ∃ x ∈ [b0, b1, b2, a1, a2], x < -134217728 ∨ 134217727 < x) →
      exec (.setSection p n.val c k u b0 b1 b2 a1 a2) s
        = .next { s with port := answeredPorts p (refusal .badArgument) s.port })
  ∧ (∀ p (n : Fin 8) (c : Fin 16) trim delay (invert : Fin 2) s, Running s →
    let edit := Instr.setChannel p n.val c.val trim delay invert.val
    (s.bank.drafts[n] = none → exec edit s = .next { s with port := answeredPorts p (refusal .badState) s.port })
    ∧ (∀ d, s.bank.drafts[n] = some d → heldBy p d = false →
      exec edit s = .next { s with port := answeredPorts p (refusal .notHolder) s.port })
    ∧ (∀ d, s.bank.drafts[n] = some d → heldBy p d = true → d.state ≠ .editable →
      ∃ t, exec edit s = .next t
        ∧ t = { s with bank := t.bank, port := answeredPorts p (refusal .busy) s.port }
        ∧ t.bank.banks = s.bank.banks ∧ OthersKept n s.bank.drafts t.bank.drafts
        ∧ t.bank.drafts[n] = some { d with holder := .port p s.system.housePeriods })
    ∧ (∀ d b, s.bank.drafts[n] = some d → heldBy p d = true → d.state = .editable → d.content = some b →
      ∃ t b', exec edit s = .next t
        ∧ t = { s with
            bank := t.bank
            port := answeredPorts p
              { status := .ok, clamped := decide (1048576 < trim ∨ 12240 < delay), data := [] } s.port }
        ∧ t.bank.banks = s.bank.banks ∧ OthersKept n s.bank.drafts t.bank.drafts
        ∧ t.bank.drafts[n] = some { d with holder := .port p s.system.housePeriods, content := some b' }
        ∧ OthersKept c b b'
        ∧ b'[c] = { b[c] with
            trim := min trim 1048576, delay := min delay 12240, invert := decide (invert.val = 1) }))
  ∧ ∀ p (n : Fin 8) c trim delay invert s, Running s → (16 ≤ c ∨ 1 < invert) →
      exec (.setChannel p n.val c trim delay invert) s
        = .next { s with port := answeredPorts p (refusal .badArgument) s.port }

/-- R83, R84: COMMIT of an EDITABLE draft whose every section in use passes swaps it in at once on an OFF screen with
OK, and on a screen in service makes it COMMITTING, marked, with ACCEPTED; at the first section that fails it is
refused with UNSTABLE, the channel and the section, and the draft stays EDITABLE. -/
def Obligations.CommitSwapsOnlyStableBanks : Prop :=
  ∀ p (n : Fin 8) d b s, Running s → s.bank.drafts[n] = some d → heldBy p d = true → d.state = .editable →
    d.content = some b →
    (BankStable b → s.screens[n].state = .off →
      ∃ t, exec (.commit p n.val) s = .next t
        ∧ t = { s with
            bank := t.bank, engine := { s.engine with channels := t.engine.channels }
            port := answeredPorts p (answer .ok []) s.port }
        ∧ t.bank.banks[n] = b ∧ OthersKept n s.bank.banks t.bank.banks
        ∧ t.bank.drafts[n] = none ∧ OthersKept n s.bank.drafts t.bank.drafts
        ∧ OthersKept n s.engine.channels t.engine.channels
        ∧ ∀ c : Fin 16, t.engine.channels[n][c].delayInUse = (b[c]).delay ∧ t.engine.channels[n][c].target = none)
    ∧ (BankStable b → s.screens[n].state ≠ .off →
      ∃ t, exec (.commit p n.val) s = .next t
        ∧ t = { s with
            screens := t.screens, bank := t.bank, port := answeredPorts p (answer .accepted []) s.port }
        ∧ t.bank.banks = s.bank.banks ∧ OthersKept n s.bank.drafts t.bank.drafts
        ∧ t.bank.drafts[n] = some { d with holder := .port p s.system.housePeriods, state := .committing }
        ∧ t.screens[n] = { s.screens[n] with swapMark := true } ∧ OthersKept n s.screens t.screens)
    ∧ (¬BankStable b →
      ∃ t, ∃ (c : Fin 16) (k : Fin 12), exec (.commit p n.val) s = .next t
        ∧ t = { s with
            bank := t.bank
            port := answeredPorts p (answer .unstable [BitVec.ofNat 8 c.val, BitVec.ofNat 8 k.val]) s.port }
        ∧ t.bank.banks = s.bank.banks ∧ OthersKept n s.bank.drafts t.bank.drafts
        ∧ t.bank.drafts[n] = some { d with holder := .port p s.system.housePeriods }
        ∧ stableSection (b[c]).sections[k] = false
        ∧ ∀ (c' : Fin 16) (k' : Fin 12), (c' < c ∨ c' = c ∧ k' < k) → stableSection (b[c']).sections[k'] = true)

/-- R83, R85, R86, R82, R93: COMMIT and ABANDON are refused with BAD_STATE without a draft, with NOT_HOLDER to a port
that does not hold it, and with BAD_STATE when it is COMMITTING, COMMIT with BUSY when it is LOADING; COMMIT's
refusals of the holder touch the draft (of a COMMITTING one: log entry 41). ABANDON removes an EDITABLE draft, or a
LOADING one with its load removed or discarded, and changes no bank. GET_DRAFT is answered OK, changes nothing but the
holder's last touch, and gives the header of the draft and, unless it is LOADING, its channel records (R189). -/
def Sys2Proof.Machine.AbandonRemovesTheDraft : Prop :=
  ∀ p (n : Fin 8) s, Running s →
    (s.bank.drafts[n] = none →
      exec (.abandon p n.val) s = .next { s with port := answeredPorts p (refusal .badState) s.port }
      ∧ exec (.commit p n.val) s = .next { s with port := answeredPorts p (refusal .badState) s.port })
    ∧ (∀ d, s.bank.drafts[n] = some d → heldBy p d = false →
      exec (.abandon p n.val) s = .next { s with port := answeredPorts p (refusal .notHolder) s.port }
      ∧ exec (.commit p n.val) s = .next { s with port := answeredPorts p (refusal .notHolder) s.port })
    ∧ (∀ d, s.bank.drafts[n] = some d → heldBy p d = true → d.state = .committing →
      exec (.abandon p n.val) s = .next { s with port := answeredPorts p (refusal .badState) s.port })
    ∧ (∀ d, s.bank.drafts[n] = some d → heldBy p d = true → d.state ≠ .editable →
      ∃ t, exec (.commit p n.val) s = .next t
        ∧ t = { s with
            bank := t.bank
            port := answeredPorts p (refusal (if d.state = .loading then .busy else .badState)) s.port }
        ∧ t.bank.banks = s.bank.banks ∧ OthersKept n s.bank.drafts t.bank.drafts
        ∧ t.bank.drafts[n] = some { d with holder := .port p s.system.housePeriods })
    ∧ (∀ d, s.bank.drafts[n] = some d → heldBy p d = true → d.state = .editable →
      ∃ t, exec (.abandon p n.val) s = .next t
        ∧ t = { s with bank := t.bank, port := answeredPorts p (answer .ok []) s.port }
        ∧ t.bank.banks = s.bank.banks ∧ t.bank.drafts[n] = none ∧ OthersKept n s.bank.drafts t.bank.drafts)
    ∧ (∀ d before e after, s.bank.drafts[n] = some d → heldBy p d = true → d.state = .loading →
      IsDraftsLoad n s before e after →
      ∃ t u, LoadDropped before e after s u ∧ exec (.abandon p n.val) s = .next t
        ∧ t = { u with bank := t.bank, port := answeredPorts p (answer .ok []) s.port }
        ∧ t.bank.banks = s.bank.banks ∧ t.bank.drafts[n] = none ∧ OthersKept n s.bank.drafts t.bank.drafts)
    ∧ ∃ t data, exec (.getDraft p n.val) s = .next t
        ∧ t = { s with bank := t.bank, port := answeredPorts p (answer .ok data) s.port }
        ∧ t.bank.banks = s.bank.banks ∧ OthersKept n s.bank.drafts t.bank.drafts
        ∧ (s.bank.drafts[n] = none → t.bank.drafts[n] = none ∧ data = [0, 0, 0, 0, 0, 0])
        ∧ (∀ d, s.bank.drafts[n] = some d →
            let e := if heldBy p d = true then { d with holder := .port p s.system.housePeriods } else d
            t.bank.drafts[n] = some e
            ∧ (d.state = .loading → data = laidOut (draftFields e))
            ∧ (∀ b, d.state ≠ .loading → d.content = some b → ∃ words,
                data = laidOut (draftFields e ++ words.flatMap wordField) ∧ RecordsOf b words))

/-- R81, R82, R83, R85, R86: edits, ABANDON and GET_DRAFT act on the draft of the port that holds it. -/
def Obligations.DraftEditsAndAbandon : Prop :=
  EditsChangeTheDraftOnly ∧ AbandonRemovesTheDraft

/-- R83, R84, R78, R2, R79: every step keeps every active bank in range and stable, every draft as its state says, and
every staged change marked, with none on an OFF screen. -/
def Obligations.EveryStepKeepsTheBanksStable : Prop :=
  ∀ s t, BanksKept s ∧ StagedKept s → step s = .next t → BanksKept t ∧ StagedKept t

/-! ### Meters and alarms -/

/-- R130, R129, R121: SET_WATCH puts the new watch, of any kind and action, in CLEAR with run 0, a RAISED one first
reporting its absence with the kind and action it had; it is refused for a meter, kind, threshold, hold or action out
of range. SET_METER_RELEASE takes a shift of 1..12, with CLAMPED beyond. -/
def Sys2Proof.Machine.WatchAndReleaseRequests : Prop :=
  (∀ p (n : Fin 8) (i : Fin 32) kind threshold hold action s, Running s → threshold ≤ 8388608 → 1 ≤ hold →
    let old := s.meter.watches[n][i]
    ∃ t, exec (.setWatch p n.val i.val (watchKindCode kind) threshold hold (actionCode action)) s = .next t
      ∧ t = { s with
          meter := { s.meter with watches := t.meter.watches }
          port := answeredPorts p (answer .ok []) s.port
          mail := { s.mail with alarms := s.mail.alarms ++ (if old.raised = true then
            [{ id := { kind := if old.kind = .over then .over else .silence, scope := .screen n, index := i.val }
               raise := false, action := old.action, atOff := false }] else []) } }
      ∧ OthersKept n s.meter.watches t.meter.watches
      ∧ OthersKept i s.meter.watches[n] t.meter.watches[n]
      ∧ t.meter.watches[n][i] =
          { kind := kind, threshold := threshold, hold := hold, action := action, run := 0, raised := false })
  ∧ (∀ p (n : Fin 8) i kind threshold hold action s, Running s →
      (32 ≤ i ∨ 2 < kind ∨ 8388608 < threshold ∨ hold = 0 ∨ 2 < action) →
      exec (.setWatch p n.val i kind threshold hold action) s
        = .next { s with port := answeredPorts p (refusal .badArgument) s.port })
  ∧ ∀ p shift s, Running s → exec (.setMeterRelease p shift) s = .next
      { s with
        meter := { s.meter with shift := max 1 (min shift 12) }
        port := answeredPorts p { status := .ok, clamped := decide (shift < 1 ∨ 12 < shift), data := [] } s.port }

/-- R138, R139, R143, R144, R148: a raise makes its entry the newest of the set, counted up or new, unacknowledged, with
the severity of the kind map, the house period count and the position while it is known; the log, its oldest entry
dropped when it holds 64, gains a RAISED entry under the next sequence number; a free snapshot of its screen is taken
at or above the snapshot level, and none below it or for DEVICE scope; a line that goes active has its latch set;
the action sends a cause addition or a hold to the screen of the identity; nothing else changes. -/
def Obligations.RaisesAreRecorded : Prop :=
  ∀ (r : AlarmReport) before after s, Running s → r.raise = true → s.mail.alarms = before ++ r :: after →
    (∀ x ∈ before, x.id ≠ r.id ∧ mustPrecede x r = false) →
    ∃ t e, exec (.alarmRaise r.id) s = .next t
      ∧ t = { s with
          alarm := { s.alarm with
            active := (s.alarm.active.filter fun x => x.id ≠ r.id) ++ [e]
            log := (if 64 ≤ s.alarm.log.length then s.alarm.log.tail else s.alarm.log) ++
              [{ sequence := s.alarm.nextSequence, period := s.system.housePeriods, id := r.id
                 severity := e.severity, raised := true }]
            nextSequence := s.alarm.nextSequence + 1, snapshots := t.alarm.snapshots, lines := t.alarm.lines }
          mail := { s.mail with alarms := before ++ after, causes := t.mail.causes, holds := t.mail.holds } }
      ∧ e.id = r.id ∧ e.severity = s.alarm.kindMap[kindRow r.id.kind].severity ∧ e.acknowledged = false
      ∧ e.present = isCondition r.id.kind ∧ e.latestRaise = s.system.housePeriods
      ∧ e.action = (if r.id.kind = .silence ∨ r.id.kind = .over then r.action
          else s.alarm.kindMap[kindRow r.id.kind].action)
      ∧ ((∀ x ∈ s.alarm.active, x.id ≠ r.id) → e.count = 1 ∧ e.firstRaise = s.system.housePeriods)
      ∧ (∀ x, s.alarm.active.find? (fun x => x.id = r.id) = some x →
          e.count = min (x.count + 1) 255 ∧ e.firstRaise = x.firstRaise)
      ∧ ((r.id.scope = .device ∨ r.id.kind = .linkLost) → e.position = none)
      ∧ (∀ n, r.id.scope = .screen n → r.id.kind ≠ .linkLost →
          e.position = if s.links[n].known = true then some s.links[n].lastPosition else none)
      ∧ (∀ i : Fin 4, t.alarm.lines[i] = { s.alarm.lines[i] with
          latch := s.alarm.lines[i].latch || (!lineLevel s.alarm i && lineLevel t.alarm i) })
      ∧ ((r.id.scope = .device ∨ severityCode e.severity < severityCode s.alarm.snapshotLevel) →
          t.alarm.snapshots = s.alarm.snapshots)
      ∧ (∀ n, r.id.scope = .screen n → OthersKept n s.alarm.snapshots t.alarm.snapshots)
      ∧ (∀ (n : Fin 8) x, s.alarm.snapshots[n] = some x → t.alarm.snapshots[n] = some x)
      ∧ (∀ n, r.id.scope = .screen n → s.alarm.snapshots[n] = none →
          severityCode s.alarm.snapshotLevel ≤ severityCode e.severity →
          ∃ x, t.alarm.snapshots[n] = some x ∧ x.id = r.id ∧ x.period = s.system.housePeriods
            ∧ x.position = e.position ∧ ∀ i : Fin 32, x.values[i] = (s.meter.meters[n][i]).value)
      ∧ (∀ n, r.id.scope = .screen n →
          (e.action = .fallback → t.mail.holds = s.mail.holds ∧
            t.mail.causes = s.mail.causes ++ [{ screen := n, id := r.id, add := true, stale := false }])
          ∧ (e.action = .holdCues → t.mail.causes = s.mail.causes ∧ t.mail.holds = s.mail.holds ++ [
            { screen := n
              ofCue := decide (r.id.kind = .cueLate ∨ r.id.kind = .cueBlocked ∨ r.id.kind = .cueMark) }])
          ∧ (e.action = .none → t.mail.causes = s.mail.causes ∧ t.mail.holds = s.mail.holds))
      ∧ (r.id.scope = .device → t.mail.causes = s.mail.causes ∧ t.mail.holds = s.mail.holds)

/-- R140, R141, R143: the absence of a condition that stands present clears it, adds a CLEARED entry to the log, whose
oldest entry is dropped when it holds 64, and sends a cause removal to its screen, and an acknowledged entry leaves
the set; no snapshot is taken; any other absence changes nothing. -/
def Sys2Proof.Machine.AbsencesClearConditions : Prop :=
  ∀ (r : AlarmReport) before after s, Running s → r.raise = false → s.mail.alarms = before ++ r :: after →
    (∀ x ∈ before, x.id ≠ r.id ∧ mustPrecede x r = false) → AlarmsKept s →
    ((∀ x ∈ s.alarm.active, x.id = r.id → x.present = false) →
      exec (.alarmAbsence r.id) s = .next { s with mail := { s.mail with alarms := before ++ after } })
    ∧ ∀ e, e ∈ s.alarm.active → e.id = r.id → e.present = true →
      ∃ t, exec (.alarmAbsence r.id) s = .next t
        ∧ t = { s with
            alarm := { s.alarm with
              active := t.alarm.active
              log := (if 64 ≤ s.alarm.log.length then s.alarm.log.tail else s.alarm.log) ++
                [{ sequence := s.alarm.nextSequence, period := s.system.housePeriods, id := r.id
                   severity := e.severity, raised := false }]
              nextSequence := s.alarm.nextSequence + 1, lines := t.alarm.lines }
            mail := { s.mail with alarms := before ++ after, causes := t.mail.causes } }
        ∧ (∀ x, x ∈ t.alarm.active ↔
            (x ∈ s.alarm.active ∧ x.id ≠ r.id) ∨ (e.acknowledged = false ∧ x = { e with present := false }))
        ∧ (∀ i : Fin 4, t.alarm.lines[i] = { s.alarm.lines[i] with
            latch := s.alarm.lines[i].latch || (!lineLevel s.alarm i && lineLevel t.alarm i) })
        ∧ (∀ n, r.id.scope = .screen n →
            t.mail.causes = s.mail.causes ++ [{ screen := n, id := r.id, add := false, stale := false }])
        ∧ (r.id.scope = .device → t.mail.causes = s.mail.causes)

/-- R141: ACK_ALARM acknowledges the entry it names, or every entry, and those acknowledged with their condition absent
leave the set; it is refused with BAD_ARGUMENT for no identity and with NOT_FOUND for one without an entry; nothing
else changes, for no line goes active with it. -/
def Sys2Proof.Machine.AcknowledgementsDropAbsentEntries : Prop :=
  ∀ p s, Running s →
    (∀ kind scope index, kind ≠ 255 → identityOf kind scope index = none →
      exec (.ackAlarm p kind scope index) s = .next { s with port := answeredPorts p (refusal .badArgument) s.port })
    ∧ (∀ kind scope index id, kind ≠ 255 → identityOf kind scope index = some id →
        (∀ e ∈ s.alarm.active, e.id ≠ id) →
        exec (.ackAlarm p kind scope index) s = .next { s with port := answeredPorts p (refusal .notFound) s.port })
    ∧ (∀ kind scope index id, kind ≠ 255 → identityOf kind scope index = some id →
        (∃ e ∈ s.alarm.active, e.id = id) →
        exec (.ackAlarm p kind scope index) s = .next { s with
          alarm := { s.alarm with active := (s.alarm.active.map fun e =>
            if e.id = id then { e with acknowledged := true } else e).filter fun e => e.present || !e.acknowledged }
          port := answeredPorts p (answer .ok []) s.port })
    ∧ ∀ scope index, exec (.ackAlarm p 255 scope index) s = .next { s with
        alarm := { s.alarm with
          active := (s.alarm.active.filter fun e => e.present).map fun e => { e with acknowledged := true } }
        port := answeredPorts p (answer .ok []) s.port }

/-- R140, R141: an entry leaves the active set when it is acknowledged and its condition is absent. -/
def Obligations.AbsencesAndAcknowledgements : Prop :=
  AbsencesClearConditions ∧ AcknowledgementsDropAbsentEntries

/-- R136, R145, R146, R147, R148: SET_SEVERITY, of any severity and any action its kind may hold, SET_ROUTE,
SET_SNAPSHOT_LEVEL and RELEASE_SNAPSHOT change their record alone. SET_LINE, of any mode, threshold and scopes, sets
its line, whose level follows from the active set and whose latch is set when the line goes active with it;
CLEAR_LINE_LATCH answers the latch and the level and clears the latch; neither changes another line. An argument out
of range is refused with BAD_ARGUMENT, as is an action the kind may not hold. -/
def Sys2Proof.Machine.AlarmConfigurationRequests : Prop :=
  (∀ p (row : Fin 14) kind severity action s, Running s → row.val + 1 = alarmKindCode kind →
    let request := Instr.setSeverity p (alarmKindCode kind) (severityCode severity) (actionCode action)
    (MapActionAllowed kind action → ∃ t, exec request s = .next t
      ∧ t = { s with alarm := { s.alarm with kindMap := t.alarm.kindMap }, port := answeredPorts p (answer .ok []) s.port }
      ∧ t.alarm.kindMap[row] = { severity := severity, action := action }
      ∧ OthersKept row s.alarm.kindMap t.alarm.kindMap)
    ∧ (¬MapActionAllowed kind action →
      exec request s = .next { s with port := answeredPorts p (refusal .badArgument) s.port }))
  ∧ (∀ p kind severity action s, Running s →
      (kind = 0 ∨ 14 < kind ∨ severity = 0 ∨ 3 < severity ∨ 2 < action) →
      exec (.setSeverity p kind severity action) s
        = .next { s with port := answeredPorts p (refusal .badArgument) s.port })
  ∧ (∀ p (v : Fin 3) (mask : Fin 8) s, Running s →
      ∃ t, exec (.setRoute p (v.val + 1) mask.val) s = .next t
        ∧ t = { s with alarm := { s.alarm with routes := t.alarm.routes }, port := answeredPorts p (answer .ok []) s.port }
        ∧ t.alarm.routes[v] = BitVec.ofNat 3 mask.val ∧ OthersKept v s.alarm.routes t.alarm.routes)
  ∧ (∀ p severity mask s, Running s → (severity = 0 ∨ 3 < severity ∨ 7 < mask) →
      exec (.setRoute p severity mask) s = .next { s with port := answeredPorts p (refusal .badArgument) s.port })
  ∧ (∀ p severity s, Running s → exec (.setSnapshotLevel p (severityCode severity)) s = .next
      { s with alarm := { s.alarm with snapshotLevel := severity }, port := answeredPorts p (answer .ok []) s.port })
  ∧ (∀ p severity s, Running s → (severity = 0 ∨ 3 < severity) →
      exec (.setSnapshotLevel p severity) s = .next { s with port := answeredPorts p (refusal .badArgument) s.port })
  ∧ (∀ p (i : Fin 4) mode threshold (mask : Fin 512) (follow : Fin 2) s, Running s →
      ∃ t level, exec (.setLine p i.val (lineModeCode mode) (severityCode threshold) mask.val follow.val) s = .next t
        ∧ t = { s with alarm := { s.alarm with lines := t.alarm.lines }, port := answeredPorts p (answer .ok []) s.port }
        ∧ t.alarm.lines[i] =
            { mode := mode, threshold := threshold, scopes := BitVec.ofNat 9 mask.val
              follow := decide (follow.val = 1), latch := s.alarm.lines[i].latch || (!lineLevel s.alarm i && level) }
        ∧ OthersKept i s.alarm.lines t.alarm.lines
        ∧ lineLevel t.alarm i = level
        ∧ (mode = .off → level = false) ∧ (mode = .follow → level = decide (follow.val = 1))
        ∧ (mode = .severity → (level = true ↔ ∃ e ∈ s.alarm.active, e.acknowledged = false
            ∧ severityCode threshold ≤ severityCode e.severity
            ∧ ((∃ n : Fin 8, e.id.scope = .screen n ∧ mask.val.testBit n.val = true)
              ∨ e.id.scope = .device ∧ mask.val.testBit 8 = true))))
  ∧ (∀ p line mode threshold mask follow s, Running s →
      (3 < line ∨ 2 < mode ∨ threshold = 0 ∨ 3 < threshold ∨ 511 < mask ∨ 1 < follow) →
      exec (.setLine p line mode threshold mask follow) s
        = .next { s with port := answeredPorts p (refusal .badArgument) s.port })
  ∧ (∀ p (i : Fin 4) s, Running s →
      ∃ t, exec (.clearLineLatch p i.val) s = .next t
        ∧ t = { s with
            alarm := { s.alarm with lines := t.alarm.lines }
            port := answeredPorts p (answer .ok
              [if s.alarm.lines[i].latch = true then 1 else 0, if lineLevel s.alarm i = true then 1 else 0]) s.port }
        ∧ t.alarm.lines[i] = { s.alarm.lines[i] with latch := false }
        ∧ OthersKept i s.alarm.lines t.alarm.lines)
  ∧ (∀ p line s, Running s → 3 < line →
      exec (.clearLineLatch p line) s = .next { s with port := answeredPorts p (refusal .badArgument) s.port })
  ∧ ∀ p (n : Fin 8) s, Running s →
      ∃ t, exec (.releaseSnapshot p n.val) s = .next t
        ∧ t = { s with
            alarm := { s.alarm with snapshots := t.alarm.snapshots }, port := answeredPorts p (answer .ok []) s.port }
        ∧ t.alarm.snapshots[n] = none ∧ OthersKept n s.alarm.snapshots t.alarm.snapshots

/-- R146: the attention line of a port is active while the active set holds an unacknowledged entry whose severity is
routed to the port, and inactive otherwise: the masks of NOTICE, WARNING and CRITICAL in this order, the ports A, B and C
at weights 1, 2 and 4 (R191). -/
def Sys2Proof.Machine.AttentionFollowsTheRoutes : Prop :=
  ∀ (a : AlarmHandler) p, attention a p = true ↔
    ∃ e ∈ a.active, e.acknowledged = false ∧ ∃ row : Fin 3, severityCode e.severity = row.val + 1
      ∧ (match p with
        | .A => a.routes[row].getLsbD 0
        | .B => a.routes[row].getLsbD 1
        | .C => a.routes[row].getLsbD 2) = true

/-- R121, R129, R130, R136, R145 to R148: the requests that configure watches, meters and the Alarm Handler change
their record alone, beyond the latch of a line that goes active with its own change, and the attention lines follow
the routes. -/
def Obligations.MeterAndAlarmConfiguration : Prop :=
  WatchAndReleaseRequests ∧ AlarmConfigurationRequests ∧ AttentionFollowsTheRoutes

/-- R137, R141, R143: every step keeps the active set, its entries and the log in form. -/
def Sys2Proof.Machine.EveryStepKeepsTheAlarms : Prop :=
  ∀ s t, AlarmsKept s → step s = .next t → AlarmsKept t


/-! ### Cues -/

/-- R149, R152: ADD_CUE, of any action with its arguments in range and with catch-up set or clear, is refused with
DUPLICATE_ID for an id the screen has and with POOL_FULL on a full pool, neither with CLAMPED (log entry 43) and the
first before the second (47), and otherwise puts the cue in its place, SKIPPED when its position is before the last
position end and ARMED otherwise, and answers the state entered, with CLAMPED when a FADE value was clamped. An id of
0, a catch-up flag above 1 or an action out of range is refused with BAD_ARGUMENT. -/
def Sys2Proof.Machine.AddCueArmsOrSkips : Prop :=
  ∀ p (n : Fin 8) id position late catchUp raw s, Running s →
    let request := Instr.addCue p n.val id position late catchUp raw
    ((id = 0 ∨ 1 < catchUp ∨ ∀ act clamped, ¬ActionNamed raw act clamped) →
      exec request s = .next { s with port := answeredPorts p (refusal .badArgument) s.port })
    ∧ ∀ act clamped, ActionNamed raw act clamped → 1 ≤ id → catchUp ≤ 1 →
      ((∃ c ∈ s.cue.pool, c.screen = n ∧ c.id = id) →
        exec request s = .next { s with port := answeredPorts p (refusal .duplicateId) s.port })
      ∧ ((∀ c ∈ s.cue.pool, ¬(c.screen = n ∧ c.id = id)) → 256 ≤ s.cue.pool.length →
        exec request s = .next { s with port := answeredPorts p (refusal .poolFull) s.port })
      ∧ ((∀ c ∈ s.cue.pool, ¬(c.screen = n ∧ c.id = id)) → s.cue.pool.length < 256 →
        ∃ t c, exec request s = .next t
          ∧ t = { s with
              cue := { s.cue with pool := t.cue.pool }
              port := answeredPorts p
                { status := .ok, clamped := clamped, data := [if c.state = .skipped then 3 else 0] } s.port }
          ∧ c.screen = n ∧ c.id = id ∧ c.position = BitVec.ofNat 32 position ∧ c.action = act
          ∧ c.lateLimit = late ∧ (c.catchUp = true ↔ catchUp = 1)
          ∧ (c.state = .armed ∨ c.state = .skipped)
          ∧ (c.state = .skipped ↔ ∃ e, s.cue.schedules[n].lastEnd = some e ∧ c.position < e)
          ∧ (∃ before after, s.cue.pool = before ++ after ∧ t.cue.pool = before ++ c :: after
              ∧ (∀ x ∈ before, cueBefore c x = false) ∧ (∀ x, after.head? = some x → cueBefore c x = true)))

/-- R153, R160, R165: REMOVE_CUE frees one cue and CLEAR_CUES every cue of a screen; CUE_ENABLE with clear clears the
enable and leaves HELD cues held; DRIVE_LINE sets a line's record and answers the one before. Nothing else changes. An
id of 0, a value that is neither set nor clear, and a line or drive out of range are refused with BAD_ARGUMENT. -/
def Sys2Proof.Machine.ScheduleEdits : Prop :=
  (∀ p (n : Fin 8) id s, Running s → 1 ≤ id → (∃ c ∈ s.cue.pool, c.screen = n ∧ c.id = id) →
    ∃ t, exec (.removeCue p n.val id) s = .next t
      ∧ t = { s with cue := { s.cue with pool := t.cue.pool }, port := answeredPorts p (answer .ok []) s.port }
      ∧ List.Sublist t.cue.pool s.cue.pool
      ∧ ∀ c, c ∈ t.cue.pool ↔ c ∈ s.cue.pool ∧ ¬(c.screen = n ∧ c.id = id))
  ∧ (∀ p (n : Fin 8) id s, Running s → 1 ≤ id → (∀ c ∈ s.cue.pool, ¬(c.screen = n ∧ c.id = id)) →
      exec (.removeCue p n.val id) s = .next { s with port := answeredPorts p (refusal .notFound) s.port })
  ∧ (∀ p (n : Fin 8) s, Running s →
      exec (.removeCue p n.val 0) s = .next { s with port := answeredPorts p (refusal .badArgument) s.port })
  ∧ (∀ p (n : Fin 8) value s, Running s → 1 < value →
      exec (.cueEnable p n.val value) s = .next { s with port := answeredPorts p (refusal .badArgument) s.port })
  ∧ (∀ p line drive s, Running s → (8 ≤ line ∨ (∃ v, drive = .level v ∧ 1 < v) ∨ drive = .pulse 0) →
      exec (.driveLine p line drive) s = .next { s with port := answeredPorts p (refusal .badArgument) s.port })
  ∧ (∀ p (n : Fin 8) s, Running s → ∃ t data, exec (.clearCues p n.val) s = .next t
      ∧ t = { s with cue := { s.cue with pool := t.cue.pool }, port := answeredPorts p (answer .ok data) s.port }
      ∧ List.Sublist t.cue.pool s.cue.pool
      ∧ (∀ c, c ∈ t.cue.pool ↔ c ∈ s.cue.pool ∧ c.screen ≠ n)
      ∧ (s.cue.pool.length ≤ 256 → bigEndian data + t.cue.pool.length = s.cue.pool.length ∧ data.length = 2))
  ∧ (∀ p (n : Fin 8) s, Running s → ∃ t, exec (.cueEnable p n.val 0) s = .next t
      ∧ t = { s with
          cue := { s.cue with schedules := t.cue.schedules }, port := answeredPorts p (answer .ok []) s.port }
      ∧ t.cue.schedules[n] = { s.cue.schedules[n] with enable := false }
      ∧ OthersKept n s.cue.schedules t.cue.schedules)
  ∧ (∀ p (i : Fin 8) len s, Running s → 1 ≤ len → ∃ t, exec (.driveLine p i.val (.pulse len)) s = .next t
      ∧ t = { s with
          cue := { s.cue with lines := t.cue.lines }
          port := answeredPorts p (answer .ok (laidOut (cueLineFields s.cue.lines[i]))) s.port }
      ∧ t.cue.lines[i] = { s.cue.lines[i] with pulse := true, remaining := len }
      ∧ OthersKept i s.cue.lines t.cue.lines)
  ∧ ∀ p (i : Fin 8) (v : Fin 2) s, Running s → ∃ t, exec (.driveLine p i.val (.level v.val)) s = .next t
      ∧ t = { s with
          cue := { s.cue with lines := t.cue.lines }
          port := answeredPorts p (answer .ok (laidOut (cueLineFields s.cue.lines[i]))) s.port }
      ∧ t.cue.lines[i] = { pulse := false, level := decide (v.val = 1), remaining := 0 }
      ∧ OthersKept i s.cue.lines t.cue.lines

/-- R152, R153, R160, R165: the requests that edit the cue schedule and drive the cue lines. -/
def Obligations.ScheduleRequests : Prop :=
  AddCueArmsOrSkips ∧ ScheduleEdits

/-- R155 to R159: with a screen's enable clear, an advance makes every cue it takes HELD at the house period count and
fires none: those a START or a forward jump passes by with catch-up set, and those ARMED in its range after the kind
step. Those passed by without catch-up are SKIPPED, those a backward jump goes back to and does not take are ARMED,
and every other cue of the pool is as it was. The last position end becomes the first position plus 48, and nothing
outside the Cue Scheduler changes. A forward jump without a last position end, which no run reaches, passes none by
(log entry 10). -/
def Sys2Proof.Machine.AdvancesHoldCuesWhileDisabled : Prop :=
  ∀ (a : Advance) before after s, Running s → s.mail.advances = before ++ a :: after →
    (∀ x ∈ before, x.screen ≠ a.screen) → s.cue.schedules[a.screen].enable = false → CuesKept s →
    ¬EventsComing a.screen s →
    let lastEnd := s.cue.schedules[a.screen].lastEnd
    ∃ t, exec (.positionAdvance a.screen) s = .next t
      ∧ t = { s with
          cue := { s.cue with
            pool := s.cue.pool.map fun c =>
              if taken a lastEnd c = true then { c with state := .held s.system.housePeriods }
              else afterKind a lastEnd c
            schedules := t.cue.schedules }
          mail := { s.mail with advances := before ++ after } }
      ∧ t.cue.schedules[a.screen] = { enable := false, lastEnd := some (a.first + 48) }
      ∧ OthersKept a.screen s.cue.schedules t.cue.schedules

/-- R155 to R159, R161, R162: with the enable set, an advance fires every cue it takes, in list order, those passed by
before those of its range: each hands its action to its owner, and becomes FIRED when it is accepted and FAILED when
it is not. Each MARK cue raises CUE_MARK and each FAILED cue CUE_BLOCKED, in that order. A RELAY cue is accepted when
its expander is present, an EQ_SELECT cue never of a slot that is not VALID or over a port's draft, and any other
always. Beyond what the owners do nothing changes. -/
def Sys2Proof.Machine.AdvancesFireCuesWhileEnabled : Prop :=
  ∀ (a : Advance) before after s, Running s → s.mail.advances = before ++ a :: after →
    (∀ x ∈ before, x.screen ≠ a.screen) → s.cue.schedules[a.screen].enable = true → CuesKept s →
    ¬EventsComing a.screen s →
    let lastEnd := s.cue.schedules[a.screen].lastEnd
    let fired := s.cue.pool.filter (takenPassing a lastEnd) ++ s.cue.pool.filter (takenInRange a lastEnd)
    let owners := fired.foldl (fun u c => fireCue c u) s
    let event := fun kind => raiseOf { kind := kind, scope := .screen a.screen, index := 0 }
    ∃ (t : State) (accepted : Cue → Bool), exec (.positionAdvance a.screen) s = .next t
      ∧ t = { owners with
          cue := { owners.cue with
            pool := s.cue.pool.map fun c =>
              if taken a lastEnd c = true then { c with state := if accepted c = true then .fired else .failed }
              else afterKind a lastEnd c
            schedules := t.cue.schedules }
          mail := { s.mail with
            advances := before ++ after
            alarms := s.mail.alarms ++ fired.flatMap fun c =>
              if accepted c = false then [event .cueBlocked] else if c.action = .mark then [event .cueMark] else [] } }
      ∧ t.cue.schedules[a.screen] = { enable := true, lastEnd := some (a.first + 48) }
      ∧ OthersKept a.screen s.cue.schedules t.cue.schedules
      ∧ t.pending = s.pending ∧ t.system = s.system ∧ t.links = s.links ∧ t.engine = s.engine ∧ t.meter = s.meter
      ∧ t.alarm = s.alarm ∧ t.port = s.port ∧ t.bank.banks = s.bank.banks ∧ t.gain.law = s.gain.law
      ∧ ∀ c ∈ fired,
          (∀ e mask values, c.action = .relay e mask values → accepted c = s.relay.expanders[e].present)
          ∧ (∀ k, c.action = .eqSelect k → s.library.slots[k].state ≠ .valid → accepted c = false)
          ∧ (∀ k d p touch, c.action = .eqSelect k → s.bank.drafts[a.screen] = some d → d.holder = .port p touch →
              accepted c = false)
          ∧ ((∀ e mask values, c.action ≠ .relay e mask values) → (∀ k, c.action ≠ .eqSelect k) → accepted c = true)

/-- R161, R162, R165, R169, R170, R70, R72, R43, R96: what a cue that fires hands to the owner of its action, and what
the cue becomes. FADE moves the fader as SET_LEVEL does; FORMAT is in effect at once on an OFF screen and staged and
marked in service, unless it names the mode in effect and no other is staged (log entry 35); EQ_SELECT is blocked by a
port's draft, a slot that is not VALID or a full library queue, and otherwise replaces a CUE draft, with its load and
its swap, by a LOADING one; MARK raises CUE_MARK. -/
def Sys2Proof.Machine.FiredCuesActAsTheirOwnersSay : Prop :=
  ∀ (c : Cue) s,
    let t := fireCue c s
    let became := fun (st : CueState) => t.cue.pool = s.cue.pool.map fun x =>
      if x.screen = c.screen ∧ x.id = c.id then { x with state := st } else x
    let n := c.screen
    let stands := fun (m : DecodeMode) =>
      s.decoder[n].profile.mode = m ∧ ∀ q, s.decoder[n].staged = some q → q.mode = m
    let failed := became .failed ∧ t = { s with
      cue := { s.cue with pool := t.cue.pool }
      mail := { s.mail with alarms :=
        s.mail.alarms ++ [raiseOf { kind := .cueBlocked, scope := .screen n, index := 0 }] } }
    (c.action = .mark → became .fired ∧ t = { s with
      cue := { s.cue with pool := t.cue.pool }
      mail := { s.mail with alarms :=
        s.mail.alarms ++ [raiseOf { kind := .cueMark, scope := .screen n, index := 0 }] } })
    ∧ (c.action = .mute ∨ c.action = .unmute → became .fired
      ∧ t = { s with cue := { s.cue with pool := t.cue.pool }, gain := { s.gain with levels := t.gain.levels } }
      ∧ t.gain.levels[n] = { s.gain.levels[n] with
          muted := decide (c.action = .mute)
          factor := if s.screens[n].state ≠ .off then s.gain.levels[n].factor
            else if c.action = .mute then 0 else 8 }
      ∧ OthersKept n s.gain.levels t.gain.levels)
    ∧ (∀ i d, c.action = .line i d → became .fired
      ∧ t = { s with cue := { s.cue with pool := t.cue.pool, lines := t.cue.lines } }
      ∧ OthersKept i s.cue.lines t.cue.lines
      ∧ (∀ a, d = .level a → t.cue.lines[i] = { pulse := false, level := a, remaining := 0 })
      ∧ (∀ k, d = .pulse k → t.cue.lines[i] = { s.cue.lines[i] with pulse := true, remaining := k }))
    ∧ (∀ e mask values, c.action = .relay e mask values → s.relay.expanders[e].present = false → failed)
    ∧ (∀ e mask values, c.action = .relay e mask values → s.relay.expanders[e].present = true → became .fired
      ∧ t = { s with
          cue := { s.cue with pool := t.cue.pool }
          relay := { s.relay with
            expanders := t.relay.expanders
            unstarted := if e ∈ s.relay.unstarted then s.relay.unstarted else s.relay.unstarted ++ [e] } }
      ∧ OthersKept e s.relay.expanders t.relay.expanders
      ∧ t.relay.expanders[e] = { s.relay.expanders[e] with desired := t.relay.expanders[e].desired }
      ∧ ∀ i, i < 16 → t.relay.expanders[e].desired.getLsbD i =
          if mask.getLsbD i = true ∧ (s.relay.expanders[e].wide = true ∨ i < 8) then values.getLsbD i
          else s.relay.expanders[e].desired.getLsbD i)
    ∧ (∀ m, c.action = .format m → became .fired
      ∧ t = { s with cue := { s.cue with pool := t.cue.pool }, screens := t.screens, decoder := t.decoder }
      ∧ OthersKept n s.screens t.screens ∧ OthersKept n s.decoder t.decoder
      ∧ (stands m → t.screens = s.screens ∧ t.decoder = s.decoder)
      ∧ (¬stands m → s.screens[n].state ≠ .off → t.screens[n] = { s.screens[n] with formatMark := true }
          ∧ t.decoder[n] = { s.decoder[n] with
              staged := some { s.decoder[n].staged.getD s.decoder[n].profile with mode := m } })
      ∧ (¬stands m → s.screens[n].state = .off → t.screens = s.screens
          ∧ t.decoder[n] =
            { profile := { s.decoder[n].profile with mode := m }, staged := none
              steering := if m ≠ s.decoder[n].profile.mode
                then { el := 0, er := 0, es := 0, ed := 0, lr := 0, fb := 0 } else s.decoder[n].steering }))
    ∧ (∀ level length, c.action = .fade level length → became .fired
      ∧ t = { s with cue := { s.cue with pool := t.cue.pool }, gain := { s.gain with levels := t.gain.levels } }
      ∧ OthersKept n s.gain.levels t.gain.levels
      ∧ ∀ k : Fin 101, k.val = min level 100 →
          ((length = 0 ∨ s.screens[n].state = .off) →
            t.gain.levels[n] = { s.gain.levels[n] with
              level := min level 100, gain := s.gain.law[k], ramp := none })
          ∧ (0 < length → s.screens[n].state ≠ .off →
            t.gain.levels[n] = { s.gain.levels[n] with
              level := min level 100
              ramp := some
                { start := s.gain.levels[n].gain, target := s.gain.law[k], length := min length 60000, done := 0 } }))
    ∧ ∀ k, c.action = .eqSelect k →
        let replaced := fun (u : State) => became .fired
          ∧ t = { u with
              cue := { s.cue with pool := t.cue.pool }, screens := t.screens, bank := t.bank
              library := { u.library with
                slots := t.library.slots
                queue := u.library.queue ++ [{ task := .load, slot := k, screen := n, discarded := false }] } }
          ∧ t.screens[n] = { s.screens[n] with swapMark := false } ∧ OthersKept n s.screens t.screens
          ∧ t.bank.banks = s.bank.banks ∧ OthersKept n s.bank.drafts t.bank.drafts
          ∧ t.bank.drafts[n] = some
              { holder := .cue c.id, state := .loading, origin := .library k, content := none }
          ∧ t.library.slots[k] = { u.library.slots[k] with pending := u.library.slots[k].pending + 1 }
          ∧ OthersKept k u.library.slots t.library.slots
        (∀ d p touch, s.bank.drafts[n] = some d → d.holder = .port p touch → failed)
        ∧ (s.library.slots[k].state ≠ .valid → failed)
        ∧ (∀ q, EntriesCounted n s q → 4 ≤ q → failed)
        ∧ (∀ q, s.library.slots[k].state = .valid → EntriesCounted n s q → q < 4 →
            (∀ d, s.bank.drafts[n] = some d → (∃ id, d.holder = .cue id) ∧ d.state ≠ .loading) → replaced s)
        ∧ ∀ q d id before e after, s.library.slots[k].state = .valid → EntriesCounted n s q → q < 4 →
            s.bank.drafts[n] = some d → d.holder = .cue id → d.state = .loading → IsDraftsLoad n s before e after →
            ∃ u, LoadDropped before e after s u ∧ replaced u

/-- R162: while a raise of one of the screen's cue events, or the hold such a raise has sent, is on its way,
POSITION_ADVANCE changes nothing, which is how the model keeps the order (log entry 7); the hold clears the enable. -/
def Sys2Proof.Machine.AdvancesFollowTheirEvents : Prop :=
  (∀ (n : Fin 8) s, Running s → EventsComing n s → exec (.positionAdvance n) s = .next s)
  ∧ ∀ (n : Fin 8) before after s, Running s → s.mail.holds = before ++ { screen := n, ofCue := true } :: after →
      (∀ x ∈ before, x.screen ≠ n) → ∃ t, exec (.cueHold n) s = .next t ∧ t.cue.schedules[n].enable = false

/-- R155 to R162: an advance, behind the screen's own cue events and their holds, holds or fires the cues it reaches. -/
def Obligations.AdvancesTakeCues : Prop :=
  AdvancesFollowTheirEvents ∧ AdvancesHoldCuesWhileDisabled ∧ AdvancesFireCuesWhileEnabled ∧ FiredCuesActAsTheirOwnersSay

/-- R160, R161, R162: CUE_ENABLE with set sets the enable and settles every HELD cue of the screen in list order: one
beyond its late limit becomes LATE and raises CUE_LATE, every other fires, each handing its action to its owner, and
becomes FIRED when it is accepted and FAILED when it is not, a FAILED cue raising CUE_BLOCKED and a MARK cue CUE_MARK.
The answer gives the numbers of cues FIRED, FAILED and LATE; every other cue, and all that the owners do not act on,
is kept. -/
def Sys2Proof.Machine.CueEnableReleasesHeldCues : Prop :=
  ∀ p (n : Fin 8) s, Running s → CuesKept s →
    let held := s.cue.pool.filter fun c => c.screen = n && isHeld c
    let late := releasedLate s.system.housePeriods
    let owners := (held.filter fun c => !late c).foldl (fun u c => fireCue c u) s
    let event := fun kind => raiseOf { kind := kind, scope := .screen n, index := 0 }
    let half := fun k : Nat => [BitVec.ofNat 8 (k / 256), BitVec.ofNat 8 k]
    ∃ (t : State) (accepted : Cue → Bool), exec (.cueEnable p n.val 1) s = .next t
      ∧ (let settled := fun c : Cue => if late c = true then CueState.late
          else if accepted c = true then .fired else .failed
        let number := fun st => (held.filter fun c => settled c = st).length
        t = { owners with
          cue := { owners.cue with
            pool := s.cue.pool.map fun c =>
              if c.screen = n ∧ isHeld c = true then { c with state := settled c } else c
            schedules := t.cue.schedules }
          mail := { s.mail with
            alarms := s.mail.alarms ++ held.flatMap fun c =>
              if late c = true then [event .cueLate] else if accepted c = false then [event .cueBlocked]
              else if c.action = .mark then [event .cueMark] else [] }
          port := answeredPorts p
            (answer .ok (half (number .fired) ++ half (number .failed) ++ half (number .late))) s.port })
      ∧ t.cue.schedules[n] = { s.cue.schedules[n] with enable := true }
      ∧ OthersKept n s.cue.schedules t.cue.schedules
      ∧ t.pending = s.pending ∧ t.system = s.system ∧ t.links = s.links ∧ t.engine = s.engine ∧ t.meter = s.meter
      ∧ t.alarm = s.alarm ∧ t.bank.banks = s.bank.banks ∧ t.gain.law = s.gain.law
      ∧ ∀ c ∈ held, late c = false →
          (∀ e mask values, c.action = .relay e mask values → accepted c = s.relay.expanders[e].present)
          ∧ (∀ k, c.action = .eqSelect k → s.library.slots[k].state ≠ .valid → accepted c = false)
          ∧ (∀ k d q touch, c.action = .eqSelect k → s.bank.drafts[n] = some d → d.holder = .port q touch →
              accepted c = false)
          ∧ ((∀ e mask values, c.action ≠ .relay e mask values) → (∀ k, c.action ≠ .eqSelect k) → accepted c = true)

/-- R139, R151, R163: a hold clears the screen's cue enable and nothing else; a load outcome makes the FIRED EQ_SELECT
cue it names FAILED and raises CUE_BLOCKED, and changes nothing where the screen has no such cue. -/
def Sys2Proof.Machine.HoldsAndLoadOutcomesAreTaken : Prop :=
  (∀ (n : Fin 8) ofCue before after s, Running s →
    s.mail.holds = before ++ { screen := n, ofCue := ofCue } :: after → (∀ x ∈ before, x.screen ≠ n) →
    ∃ t, exec (.cueHold n) s = .next t
      ∧ t = { s with
          cue := { s.cue with schedules := t.cue.schedules }, mail := { s.mail with holds := before ++ after } }
      ∧ t.cue.schedules[n] = { s.cue.schedules[n] with enable := false }
      ∧ OthersKept n s.cue.schedules t.cue.schedules)
  ∧ (∀ (o : LoadOutcome) before after s, Running s → s.mail.outcomes = before ++ o :: after →
      (∀ x ∈ before, x.screen ≠ o.screen) → (∀ c ∈ s.cue.pool, ¬(c.screen = o.screen ∧ c.id = o.cue)) →
      exec (.loadOutcomeReport o.screen) s = .next { s with mail := { s.mail with outcomes := before ++ after } })
  ∧ ∀ (o : LoadOutcome) before after c s, Running s → s.mail.outcomes = before ++ o :: after →
      (∀ x ∈ before, x.screen ≠ o.screen) → CuesKept s → c ∈ s.cue.pool → c.screen = o.screen → c.id = o.cue →
      ((c.state ≠ .fired ∨ ∀ k, c.action ≠ .eqSelect k) →
        exec (.loadOutcomeReport o.screen) s = .next { s with mail := { s.mail with outcomes := before ++ after } })
      ∧ (∀ k, c.state = .fired → c.action = .eqSelect k →
        ∃ t, exec (.loadOutcomeReport o.screen) s = .next t
          ∧ t = { s with
              cue := { s.cue with pool := t.cue.pool }
              mail := { s.mail with
                outcomes := before ++ after
                alarms := s.mail.alarms ++ [raiseOf { kind := .cueBlocked, scope := .screen o.screen, index := 0 }] } }
          ∧ t.cue.pool = s.cue.pool.map fun x =>
              if x.screen = o.screen ∧ x.id = o.cue then { x with state := .failed } else x)

/-- R139, R160, R163: a release settles every HELD cue, a hold clears the enable, a load outcome fails its cue. -/
def Obligations.ReleasesHoldsAndOutcomesSettleCues : Prop :=
  CueEnableReleasesHeldCues ∧ HoldsAndLoadOutcomesAreTaken

/-- R149: every step keeps the pool within 256 cues, in order, no screen with two cues of one id. -/
def Sys2Proof.Machine.EveryStepKeepsTheCuePool : Prop :=
  ∀ s t, CuesKept s → step s = .next t → CuesKept t

/-- R156: every step keeps the last position end absent only until a START, so that an advance other than START always
finds it present; SCREEN_ON comes behind the advances already sent (log entry 10). -/
def Sys2Proof.Machine.EveryStepKeepsTheAdvances : Prop :=
  ∀ s t, AdvancesKept s → step s = .next t → AdvancesKept t

/-! ### The relay bus -/

/-- R169, R170: RELAY_WRITE is refused for an expander that is not present; otherwise the outputs under the mask take
their values in the desired image, the others keep theirs, and the request is folded into the expander's unstarted
entry or appended as the newest, the answer giving the new image and then 0 for folded or 1 for appended (log entry
17). -/
def Obligations.RelayWriteFoldsOrAppends : Prop :=
  ∀ p (e : Fin 8) (mask values : Half) s, Running s →
    (s.relay.expanders[e].present = false →
      exec (.relayWrite p e.val mask.toNat values.toNat) s
        = .next { s with port := answeredPorts p (refusal .badState) s.port })
    ∧ (s.relay.expanders[e].present = true →
      ∃ t, exec (.relayWrite p e.val mask.toNat values.toNat) s = .next t
        ∧ t = { s with
            relay := { s.relay with expanders := t.relay.expanders, unstarted := t.relay.unstarted }
            port := answeredPorts p (answer .accepted (laidOut [(2, t.relay.expanders[e].desired.toNat),
              (1, if e ∈ s.relay.unstarted then 0 else 1)])) s.port }
        ∧ OthersKept e s.relay.expanders t.relay.expanders
        ∧ t.relay.expanders[e] = { s.relay.expanders[e] with desired := t.relay.expanders[e].desired }
        ∧ (∀ i, i < 16 → t.relay.expanders[e].desired.getLsbD i =
            if mask.getLsbD i = true ∧ (s.relay.expanders[e].wide = true ∨ i < 8) then values.getLsbD i
            else s.relay.expanders[e].desired.getLsbD i)
        ∧ (e ∈ s.relay.unstarted → t.relay.unstarted = s.relay.unstarted)
        ∧ (e ∉ s.relay.unstarted → t.relay.unstarted = s.relay.unstarted ++ [e]))

/-- R168: SET_EXPANDER is refused with BAD_ARGUMENT for an argument out of range or a present address that another present
entry has, and with BUSY while a transaction of the expander is in flight. Otherwise the entry takes the four values
and the answer is OK: clearing present empties the entry and takes its unstarted request away, setting it empties the
entry, another address or width makes its state unknown and drops outputs 8 to 15 for width 8, and any other change
leaves state and images. A FAULTY entry made UNKNOWN reports RELAY_FAULT absent. Nothing else changes. That BAD_ARGUMENT
goes before BUSY is the model's choice (log entry 47). -/
def Obligations.SetExpanderConfiguresAnEntry : Prop :=
  (∀ p e present address width verify s, Running s →
    (8 ≤ e ∨ 1 < present ∨ address < 8 ∨ 119 < address ∨ (width ≠ 8 ∧ width ≠ 16) ∨ 1 < verify) →
    exec (.setExpander p e present address width verify) s
      = .next { s with port := answeredPorts p (refusal .badArgument) s.port })
  ∧ (∀ p (e f : Fin 8) width verify s, Running s → e ≠ f → s.relay.expanders[f].present = true →
      exec (.setExpander p e.val 1 s.relay.expanders[f].address width verify) s
        = .next { s with port := answeredPorts p (refusal .badArgument) s.port })
  ∧ ∀ p (e : Fin 8) (present verify : Fin 2) address (wide : Bool) s, Running s → 8 ≤ address → address ≤ 119 →
      (present.val = 1 → ∀ f : Fin 8, f ≠ e → s.relay.expanders[f].present = true →
        s.relay.expanders[f].address ≠ address) →
      let request := Instr.setExpander p e.val present.val address (if wide = true then 16 else 8) verify.val
      let x := s.relay.expanders[e]
      let there := decide (present.val = 1)
      let named := { x with present := there, address := address, wide := wide, verify := decide (verify.val = 1) }
      ((∃ f, s.relay.flight = some f ∧ f.expander = e) →
        exec request s = .next { s with port := answeredPorts p (refusal .busy) s.port })
      ∧ ((∀ f, s.relay.flight = some f → f.expander ≠ e) →
        ∃ t, exec request s = .next t
          ∧ t = { s with
              relay := { s.relay with
                expanders := t.relay.expanders
                unstarted := if x.present = true ∧ there = false then s.relay.unstarted.filter (· ≠ e)
                  else s.relay.unstarted }
              port := answeredPorts p (answer .ok []) s.port
              mail := { s.mail with alarms := s.mail.alarms ++
                (if x.state = .faulty ∧ t.relay.expanders[e].state = .unknown
                  then [absenceOf { kind := .relayFault, scope := .device, index := e.val }] else []) } }
          ∧ OthersKept e s.relay.expanders t.relay.expanders
          ∧ (there ≠ x.present →
              t.relay.expanders[e] = { named with desired := 0, confirmed := none, state := .unknown })
          ∧ (there = x.present → there = true → (address ≠ x.address ∨ wide ≠ x.wide) →
              t.relay.expanders[e] = { named with
                confirmed := none, state := .unknown
                desired := if wide = true then x.desired else x.desired &&& 0x00FF#16 })
          ∧ (there = x.present → (there = false ∨ address = x.address ∧ wide = x.wide) →
              t.relay.expanders[e] = named))

/-- R171, R172: the idle master takes the oldest unstarted entry with its image, address, width and verify flag as
they stand; a START with the data line high goes on to the address byte of its part, and one that finds it low fails
the transaction and enters RECOVER; a STOP after a settled outcome returns the bus to IDLE, and after the write part
of an unsettled one begins the verify part, its count of data bytes at 0 (log entry 44); while the clock is held no
step completes (R174). While the STOP of a transaction that a reset abandoned (R177) is to be given, it is the step
that RELAY_STOP_CONDITION completes, and no other step does; the next transaction may start and waits with its START
(log entry 39). -/
def Obligations.RelayTransactionsRunTheirSteps : Prop :=
  (∀ e rest s, Running s → s.relay.bus = .idle → s.relay.unstarted = e :: rest →
    exec .relayTransactionStart s = .next { s with relay := { s.relay with
      bus := .start, unstarted := rest, stretch := 0, pulses := 0
      flight := some
        { expander := e, image := s.relay.expanders[e].desired, address := s.relay.expanders[e].address
          wide := s.relay.expanders[e].wide, verify := s.relay.expanders[e].verify, inVerify := false, bytes := 0
          value := 0, settled := false, recovering := false } } })
  ∧ (∀ s, Running s → (s.relay.bus ≠ .idle ∨ s.relay.unstarted = []) → exec .relayTransactionStart s = .next s)
  ∧ (∀ f s, Running s → s.relay.bus = .start → LinesFree s.relay → s.relay.flight = some f →
      exec (.relayStartCondition false) s = .next { s with relay := { s.relay with
        bus := if f.inVerify = true then .readAddress else .address, stretch := 0 } })
  ∧ (∀ f s, Running s → s.relay.bus = .start → LinesFree s.relay → s.relay.flight = some f →
      ∃ t, exec (.relayStartCondition true) s = .next t
        ∧ t = { s with
            relay := { s.relay with
              bus := .recover, stretch := 0, expanders := t.relay.expanders
              flight := some { f with settled := true, recovering := true } }
            mail := { s.mail with alarms :=
              s.mail.alarms ++ [raiseOf { kind := .relayFault, scope := .device, index := f.expander.val }] } }
        ∧ t.relay.expanders[f.expander] = { s.relay.expanders[f.expander] with
            state := .faulty
            confirmed := if f.inVerify = false ∧ f.bytes = 0
              then s.relay.expanders[f.expander].confirmed else none }
        ∧ OthersKept f.expander s.relay.expanders t.relay.expanders)
  ∧ (∀ f s, Running s → s.relay.bus = .stop → LinesFree s.relay → s.relay.flight = some f →
      f.settled = true →
      exec .relayStopCondition s = .next { s with relay := { s.relay with bus := .idle, flight := none } })
  ∧ (∀ f s, Running s → s.relay.bus = .stop → LinesFree s.relay → s.relay.flight = some f →
      f.settled = false →
      exec .relayStopCondition s = .next { s with relay := { s.relay with
        bus := .start, stretch := 0, flight := some { f with inVerify := true, bytes := 0 } } })
  ∧ (∀ s, Running s → s.relay.abandoning = true → s.relay.clockHeld = false →
      exec .relayStopCondition s = .next { s with relay := { s.relay with abandoning := false } })
  ∧ ∀ c s, Running s →
      (c = .relayStopCondition ∧ s.relay.clockHeld = true
        ∨ ¬LinesFree s.relay ∧ ((∃ b, c = .relayStartCondition b) ∨ (∃ b, c = .relayAddressByte b)
          ∨ (∃ b, c = .relayDataByte b) ∨ (∃ b, c = .relayReadAddress b) ∨ (∃ b, c = .relayReadByte b)
          ∨ ∃ b, c = .recoveryPulse b)) →
      exec c s = .next s

/-- R172, R173, R176: an acknowledged address goes on to its data, and a NACK settles a failure, unchanged confirmed
image on the write address, unknown on a data byte or the read address, and gives a STOP; the last acknowledged data
byte of a transaction with no verify part settles a success; the last byte read settles a success when the value is
the captured image, and otherwise a mismatch that keeps the value read. -/
def Sys2Proof.Machine.RelayBytesSettleTheOutcome : Prop :=
  let failed := fun (f : Flight) (confirmed : Option Half) (s t : State) =>
    t.relay.bus = .stop ∧ t.relay.stretch = 0 ∧ t.relay.unstarted = s.relay.unstarted
    ∧ (∃ g, t.relay.flight = some g ∧ g.settled = true ∧ g.expander = f.expander)
    ∧ t.relay.expanders[f.expander] = { s.relay.expanders[f.expander] with
        state := .faulty, confirmed := confirmed }
    ∧ OthersKept f.expander s.relay.expanders t.relay.expanders
    ∧ t = { s with relay := t.relay, mail := { s.mail with alarms :=
        s.mail.alarms ++ [raiseOf { kind := .relayFault, scope := .device, index := f.expander.val }] } }
  let succeeded := fun (f : Flight) (s t : State) =>
    t.relay.bus = .stop ∧ t.relay.stretch = 0 ∧ t.relay.unstarted = s.relay.unstarted
    ∧ (∃ g, t.relay.flight = some g ∧ g.settled = true ∧ g.expander = f.expander)
    ∧ t.relay.expanders[f.expander] = { s.relay.expanders[f.expander] with
        state := .ok, confirmed := some f.image }
    ∧ OthersKept f.expander s.relay.expanders t.relay.expanders
    ∧ t = { s with relay := t.relay, mail := { s.mail with alarms :=
        s.mail.alarms ++ (if s.relay.expanders[f.expander].state = .faulty then
          [absenceOf { kind := .relayFault, scope := .device, index := f.expander.val }] else []) } }
  ∀ f s, Running s → LinesFree s.relay → s.relay.flight = some f →
    (s.relay.bus = .address →
      exec (.relayAddressByte true) s
        = .next { s with relay := { s.relay with bus := .writeData, stretch := 0 } }
      ∧ (f.inVerify = false → f.bytes = 0 → ∃ t, exec (.relayAddressByte false) s = .next t
          ∧ failed f s.relay.expanders[f.expander].confirmed s t))
    ∧ (s.relay.bus = .writeData → f.inVerify = false →
        (∃ t, exec (.relayDataByte false) s = .next t ∧ failed f none s t)
        ∧ (f.wide = true → f.bytes = 0 → exec (.relayDataByte true) s = .next
            { s with relay := { s.relay with stretch := 0, flight := some { f with bytes := 1 } } })
        ∧ (f.wide = false ∨ f.bytes = 1 → f.verify = true → exec (.relayDataByte true) s = .next
            { s with relay := { s.relay with
                bus := .stop, stretch := 0, flight := some { f with bytes := f.bytes + 1 } } })
        ∧ (f.wide = false ∨ f.bytes = 1 → f.verify = false → ∃ t, exec (.relayDataByte true) s = .next t
            ∧ succeeded f s t))
    ∧ (s.relay.bus = .readAddress → f.inVerify = true →
        exec (.relayReadAddress true) s
          = .next { s with relay := { s.relay with bus := .readData, stretch := 0 } }
        ∧ ∃ t, exec (.relayReadAddress false) s = .next t ∧ failed f none s t)
    ∧ ∀ b : Byte, s.relay.bus = .readData →
        (f.wide = true → f.bytes = 0 → exec (.relayReadByte b) s = .next
          { s with relay := { s.relay with
              stretch := 0, flight := some { f with bytes := 1, value := b.setWidth 16 } } })
        ∧ (f.wide = false → f.bytes = 0 → ∃ t, exec (.relayReadByte b) s = .next t
            ∧ (b.setWidth 16 = f.image → succeeded f s t)
            ∧ (b.setWidth 16 ≠ f.image → failed f (some (b.setWidth 16)) s t))
        ∧ ∀ low : Byte, f.wide = true → f.bytes = 1 → f.value = low.setWidth 16 →
            ∃ t, exec (.relayReadByte b) s = .next t
            ∧ (b ++ low = f.image → succeeded f s t)
            ∧ (b ++ low ≠ f.image → failed f (some (b ++ low)) s t)

/-- R172, R173, R175: what the master drives in each step of a transaction: before a START both lines released and read,
and the START only with the clock not held low and the data line not low; the address byte, the 7-bit address with
direction bit 0 in the write part and 1 in the verify part; data byte k of the captured image, outputs 0 to 7 first, an
output at its weight in its group; an acknowledgement of each byte it reads but the last; a STOP, or both lines released
after a recovery that gave up; a recovery pulse. With the bus IDLE both lines are released. Before all of these it drives
the STOP condition of a transaction that a reset abandoned (R177, log entry 39). -/
def Sys2Proof.Machine.MasterDrivesItsSteps : Prop :=
  ∀ (dataLow : Bool) (r : RelayMaster),
    let drives := relayDrive dataLow r
    (r.abandoning = true → drives = [.stop])
    ∧ (r.abandoning = false → r.flight = none → drives = [.released])
    ∧ ∀ f, r.abandoning = false → r.flight = some f →
      (r.bus = .idle → drives = [.released])
      ∧ (r.bus = .start → (r.clockHeld = true ∨ dataLow = true) → drives = [.released])
      ∧ (r.bus = .start → r.clockHeld = false → dataLow = false → drives = [.released, .start])
      ∧ (r.bus = .address → f.address ≤ 119 → ∃ b, drives = [.byte b] ∧ b.toNat = 2 * f.address)
      ∧ (r.bus = .readAddress → f.address ≤ 119 → ∃ b, drives = [.byte b] ∧ b.toNat = 2 * f.address + 1)
      ∧ (r.bus = .writeData → ∃ b, drives = [.byte b]
          ∧ ∀ k, k < 8 → b.getLsbD k = f.image.getLsbD (8 * f.bytes + k))
      ∧ (r.bus = .readData → drives = [.readByte (decide (f.wide = true ∧ f.bytes = 0))])
      ∧ (r.bus = .stop → drives = [if f.recovering = true ∧ r.lastRecovery = .stuck then .released else .stop])
      ∧ (r.bus = .recover → drives = [.pulse])

/-- R175: each recovery pulse is counted; the data line reading high clears the bus with a STOP, and after nine pulses
with it low the recovery is STUCK and the bus goes to STOP; no expander's entry changes. That the stretch count is 0
again at each pulse is the model's choice (log entry 38). -/
def Sys2Proof.Machine.RecoveryClearsOrGivesUp : Prop :=
  ∀ f s, Running s → s.relay.bus = .recover → LinesFree s.relay → s.relay.flight = some f →
    exec (.recoveryPulse true) s = .next { s with relay := { s.relay with
      bus := .stop, stretch := 0, pulses := s.relay.pulses + 1, lastRecovery := .cleared } }
    ∧ (s.relay.pulses < 8 → exec (.recoveryPulse false) s = .next { s with relay := { s.relay with
        stretch := 0, pulses := s.relay.pulses + 1 } })
    ∧ (s.relay.pulses = 8 → exec (.recoveryPulse false) s = .next { s with relay := { s.relay with
        bus := .stop, stretch := 0, pulses := 9, lastRecovery := .stuck } })

/-- R172, R173, R175, R176: the master drives the bytes of a transaction, its partner's bytes settle its outcome, and a
recovery clears the bus or gives up. -/
def Obligations.RelayBytesAndRecoverySettle : Prop :=
  RelayBytesSettleTheOutcome ∧ MasterDrivesItsSteps ∧ RecoveryClearsOrGivesUp

/-- R167, R170, R171, R174, R175: every step keeps the expander table, the relay queue and the bus record in form. -/
def Sys2Proof.Machine.EveryStepKeepsTheRelays : Prop :=
  ∀ s t, RelayKept s → step s = .next t → RelayKept t

/-- Every step keeps the cue pool in order and free of double ids (R149), the last position end present for every advance
but a START (R156), and the expander table, the relay queue and the bus record in form (R167 to R175). -/
def Obligations.EveryStepKeepsCuesAndRelays : Prop :=
  EveryStepKeepsTheCuePool ∧ EveryStepKeepsTheAdvances ∧ EveryStepKeepsTheRelays

/-! ### The ports -/

/-- R180, R181, R186: the end of a REQUEST frame fills an EMPTY slot, replaces an unread response, and on a PENDING
slot is dropped and marked; the held request is malformed exactly when the frame is short, its count does not fit
its length, its length is above 512 or its kind is not 01h; a frame of 0 bytes, and a frame that straddled the
release of the reset line, is not held. -/
def Sys2Proof.Machine.RequestFramesActOnTheSlot : Prop :=
  ∀ p (bytes : List Byte) s, Running s →
    ∃ t, exec (.requestFrame p bytes) s = .next t
      ∧ t = { s with port := { s.port with ports := t.port.ports } }
      ∧ OthersKept (portIndex p) s.port.ports t.port.ports
      ∧ (let r := s.port.ports[portIndex p]
        let r' := t.port.ports[portIndex p]
        (r.deaf = true → r' = { r with deaf := false })
        ∧ (r.deaf = false → bytes = [] → r' = r)
        ∧ (∀ h, r.deaf = false → r.frame = none → bytes ≠ [] → bytes.head? ≠ some 2 → r.slot = .pending h →
            r' = { r with dropped := true })
        ∧ (r.deaf = false → r.frame = none → bytes ≠ [] → bytes.head? ≠ some 2 → (∀ h, r.slot ≠ .pending h) →
            ∃ h, r' = { r with slot := .pending h }
              ∧ (h.malformed = false ↔ ∃ code hi lo args, bytes = 1 :: code :: hi :: lo :: args
                  ∧ args.length = hi.toNat * 256 + lo.toNat ∧ args.length ≤ 512)
              ∧ ∀ code hi lo args, bytes = 1 :: code :: hi :: lo :: args → args.length ≤ 512 →
                  h.code = code ∧ h.arguments = args))

/-- R182, R184: the kind byte of a READ frame fixes the response's status, flags, length and data, or NO_RESPONSE; the
rise of chip select empties the slot exactly when a response's four header bytes have been clocked out. -/
def Sys2Proof.Machine.ReadFramesCollectTheResponse : Prop :=
  ∀ p s, Running s → s.port.ports[portIndex p].deaf = false →
    (s.port.ports[portIndex p].frame = none → ∃ t, exec (.readFrame p) s = .next t
      ∧ t = { s with port := { s.port with ports := t.port.ports } }
      ∧ OthersKept (portIndex p) s.port.ports t.port.ports
      ∧ ∃ f, t.port.ports[portIndex p] = { s.port.ports[portIndex p] with frame := some f }
        ∧ ((∀ x, s.port.ports[portIndex p].slot ≠ .ready x) → f = { bytes := [0x1E, 0, 0, 0], isResponse := false })
        ∧ ∀ x, s.port.ports[portIndex p].slot = .ready x → f.isResponse = true
          ∧ f.bytes = statusCode x.status
              :: (if x.clamped = true then (if x.dropped = true then 3 else 1)
                  else (if x.dropped = true then 2 else 0))
              :: BitVec.ofNat 8 (x.data.length / 256) :: BitVec.ofNat 8 x.data.length :: x.data)
    ∧ ∀ f clocked, s.port.ports[portIndex p].frame = some f → ∃ t, exec (.readFrameEnd p clocked) s = .next t
      ∧ t = { s with port := { s.port with ports := t.port.ports } }
      ∧ OthersKept (portIndex p) s.port.ports t.port.ports
      ∧ ((f.isResponse = false ∨ clocked < 4) →
          t.port.ports[portIndex p] = { s.port.ports[portIndex p] with frame := none })
      ∧ ∀ x, f.isResponse = true → 4 ≤ clocked → s.port.ports[portIndex p].slot = .ready x →
          t.port.ports[portIndex p] = { s.port.ports[portIndex p] with frame := none, slot := .empty }

/-- R180, R182, R193: data out floats while chip select is high. While it is low, a frame that is no READ frame sends 00h
throughout, and a READ frame sends 00h while its kind byte arrives, then the bytes fixed for it, and 00h beyond
them. What a frame sends before its kind is known, and a frame not received, is the model's choice (log entry 24). -/
def Sys2Proof.Machine.DataOutSendsTheFrame : Prop :=
  ∀ r : PortRecord, (∀ k, dataOut false r k = .floats)
    ∧ (r.frame = none → ∀ k, dataOut true r k = .sends 0)
    ∧ ∀ f, r.frame = some f → dataOut true r 0 = .sends 0
      ∧ (∀ k b, f.bytes[k]? = some b → dataOut true r (k + 1) = .sends b)
      ∧ ∀ k, f.bytes.length ≤ k → dataOut true r (k + 1) = .sends 0

/-- R180 to R182, R184, R186, R193: frames on a port fill and empty its slot, and data out sends what they carry. -/
def Obligations.PortFramesActOnTheSlot : Prop :=
  RequestFramesActOnTheSlot ∧ ReadFramesCollectTheResponse ∧ DataOutSendsTheFrame

/-- R183: the arbiter serves the first PENDING port after the one served last; a malformed frame is answered BAD_FRAME, a
code outside the catalogue BAD_REQUEST and arguments that do not fit BAD_ARGUMENT, none of which reaches an owner or
changes another port; a well-formed frame of the catalogue's code and argument bytes of a request, whichever of the
catalogue, has the effect of that request; with no port PENDING nothing happens. -/
def Obligations.ArbiterServesInRotation : Prop :=
  (∀ s, Running s → (∀ q h, s.port.ports[portIndex q].slot ≠ .pending h) →
    exec .requestArbiterGrant s = .next s)
  ∧ ∀ p h s, Running s → s.port.ports[portIndex p].slot = .pending h →
      (∀ q h', s.port.ports[portIndex q].slot = .pending h' →
        (portIndex p - portIndex s.port.lastServed - 1).val ≤ (portIndex q - portIndex s.port.lastServed - 1).val) →
      (h.malformed = true →
        exec .requestArbiterGrant s = .next { s with port := answeredPorts p (refusal .badFrame) s.port })
      ∧ (h.malformed = false → catalogue p h.code h.arguments = none →
        exec .requestArbiterGrant s = .next { s with port := answeredPorts p (refusal .badRequest) s.port })
      ∧ (h.malformed = false → catalogue p h.code h.arguments = some none →
        exec .requestArbiterGrant s = .next { s with port := answeredPorts p (refusal .badArgument) s.port })
      ∧ (∀ (n : Byte), h.malformed = false → h.code = 0x10 → h.arguments ≠ [n] → h.arguments.length ≠ 1 →
        exec .requestArbiterGrant s = .next { s with port := answeredPorts p (refusal .badArgument) s.port })
      ∧ ∀ i, h.malformed = false → frameOf i = some (p, h.code, h.arguments) → i.wf = true →
        ∃ t, exec .requestArbiterGrant s = .next t ∧ exec i s = .next t

/-- R181, R182, R184: every step keeps Dropped to PENDING slots, NO_RESPONSE out of the slots and refusals without
data. -/
def Sys2Proof.Machine.EveryStepKeepsThePorts : Prop :=
  ∀ s t, PortsKept s → step s = .next t → PortsKept t

/-- Every step keeps the active set and the log in form (R137, R141, R143), and the slots of the ports (R181 to R184). -/
def Obligations.EveryStepKeepsAlarmsAndPorts : Prop :=
  EveryStepKeepsTheAlarms ∧ EveryStepKeepsThePorts

/-- Every invariant above holds in the state after reset. -/
def Obligations.ResetMeetsEveryInvariant : Prop :=
  ScreensFollowRule State.reset ∧ AccountsKept State.reset ∧ OutputsInRange State.reset ∧ LinksKept State.reset
  ∧ GainKept State.reset ∧ BanksKept State.reset ∧ StagedKept State.reset ∧ LibraryKept State.reset
  ∧ MemoryKept State.reset ∧ AlarmsKept State.reset ∧ CuesKept State.reset ∧ AdvancesKept State.reset
  ∧ RelayKept State.reset ∧ PortsKept State.reset
end

