-- ==== Sys2Proof/Laws/State.lean ====
section
/-! SUPPORT. What each update of State leaves in each field: one lemma per field, true by rfl. -/

namespace Sys2Proof.Machine

open Sys2Proof

/-! ### Rows -/

@[simp] theorem getElem_update_self {α : Type} {n : Nat} (v : Vector α n) (i : Fin n) (f : α → α) :
    (update v i f)[i.val] = f v[i.val] := by
  simp [update]

theorem getElem_update {α : Type} {n : Nat} (v : Vector α n) (i j : Fin n) (f : α → α) :
    (update v i f)[j.val] = if j = i then f v[j.val] else v[j.val] := by
  by_cases h : j = i
  · subst h; simp
  · have : i.val ≠ j.val := fun e => h (Fin.ext e.symm)
    simp [update, this, h]

@[simp] theorem getElem_update_ne {α : Type} {n : Nat} (v : Vector α n) (i j : Fin n) (f : α → α) (h : j ≠ i) :
    (update v i f)[j.val] = v[j.val] := by
  simp [getElem_update, h]

@[simp] theorem getElem_mapWith {α β : Type} {n : Nat} (v : Vector α n) (f : Fin n → α → β) (i : Fin n) :
    (mapWith v f)[i.val] = f i v[i.val] := by
  simp [mapWith]

/-- An update that gives back what it found changes nothing. -/
theorem update_same {α : Type} {n : Nat} (v : Vector α n) (i : Fin n) (f : α → α) (h : f v[i.val] = v[i.val]) :
    update v i f = v := by
  simp [update, h]

/-- Two updates of one row are one. -/
@[simp] theorem update_update {α : Type} {n : Nat} (v : Vector α n) (i : Fin n) (f g : α → α) :
    update (update v i f) i g = update v i fun x => g (f x) := by
  simp [update]

/-! ### Updates of the state -/

@[simp] theorem onScreen_pending (n : Fin 8) (f : ScreenContext → ScreenContext) (s : State) :
    (onScreen n f s).pending = s.pending := rfl
@[simp] theorem onScreen_system (n : Fin 8) (f : ScreenContext → ScreenContext) (s : State) :
    (onScreen n f s).system = s.system := rfl
@[simp] theorem onScreen_screens (n : Fin 8) (f : ScreenContext → ScreenContext) (s : State) :
    (onScreen n f s).screens = update s.screens n f := rfl
@[simp] theorem onScreen_links (n : Fin 8) (f : ScreenContext → ScreenContext) (s : State) :
    (onScreen n f s).links = s.links := rfl
@[simp] theorem onScreen_decoder (n : Fin 8) (f : ScreenContext → ScreenContext) (s : State) :
    (onScreen n f s).decoder = s.decoder := rfl
@[simp] theorem onScreen_gain (n : Fin 8) (f : ScreenContext → ScreenContext) (s : State) :
    (onScreen n f s).gain = s.gain := rfl
@[simp] theorem onScreen_bank (n : Fin 8) (f : ScreenContext → ScreenContext) (s : State) :
    (onScreen n f s).bank = s.bank := rfl
@[simp] theorem onScreen_library (n : Fin 8) (f : ScreenContext → ScreenContext) (s : State) :
    (onScreen n f s).library = s.library := rfl
@[simp] theorem onScreen_memory (n : Fin 8) (f : ScreenContext → ScreenContext) (s : State) :
    (onScreen n f s).memory = s.memory := rfl
@[simp] theorem onScreen_engine (n : Fin 8) (f : ScreenContext → ScreenContext) (s : State) :
    (onScreen n f s).engine = s.engine := rfl
@[simp] theorem onScreen_meter (n : Fin 8) (f : ScreenContext → ScreenContext) (s : State) :
    (onScreen n f s).meter = s.meter := rfl
@[simp] theorem onScreen_alarm (n : Fin 8) (f : ScreenContext → ScreenContext) (s : State) :
    (onScreen n f s).alarm = s.alarm := rfl
@[simp] theorem onScreen_cue (n : Fin 8) (f : ScreenContext → ScreenContext) (s : State) :
    (onScreen n f s).cue = s.cue := rfl
@[simp] theorem onScreen_relay (n : Fin 8) (f : ScreenContext → ScreenContext) (s : State) :
    (onScreen n f s).relay = s.relay := rfl
@[simp] theorem onScreen_port (n : Fin 8) (f : ScreenContext → ScreenContext) (s : State) :
    (onScreen n f s).port = s.port := rfl
@[simp] theorem onScreen_mail (n : Fin 8) (f : ScreenContext → ScreenContext) (s : State) :
    (onScreen n f s).mail = s.mail := rfl

@[simp] theorem onLink_pending (n : Fin 8) (f : LinkRecord → LinkRecord) (s : State) :
    (onLink n f s).pending = s.pending := rfl
@[simp] theorem onLink_system (n : Fin 8) (f : LinkRecord → LinkRecord) (s : State) :
    (onLink n f s).system = s.system := rfl
@[simp] theorem onLink_screens (n : Fin 8) (f : LinkRecord → LinkRecord) (s : State) :
    (onLink n f s).screens = s.screens := rfl
@[simp] theorem onLink_links (n : Fin 8) (f : LinkRecord → LinkRecord) (s : State) :
    (onLink n f s).links = update s.links n f := rfl
@[simp] theorem onLink_decoder (n : Fin 8) (f : LinkRecord → LinkRecord) (s : State) :
    (onLink n f s).decoder = s.decoder := rfl
@[simp] theorem onLink_gain (n : Fin 8) (f : LinkRecord → LinkRecord) (s : State) :
    (onLink n f s).gain = s.gain := rfl
@[simp] theorem onLink_bank (n : Fin 8) (f : LinkRecord → LinkRecord) (s : State) :
    (onLink n f s).bank = s.bank := rfl
@[simp] theorem onLink_library (n : Fin 8) (f : LinkRecord → LinkRecord) (s : State) :
    (onLink n f s).library = s.library := rfl
@[simp] theorem onLink_memory (n : Fin 8) (f : LinkRecord → LinkRecord) (s : State) :
    (onLink n f s).memory = s.memory := rfl
@[simp] theorem onLink_engine (n : Fin 8) (f : LinkRecord → LinkRecord) (s : State) :
    (onLink n f s).engine = s.engine := rfl
@[simp] theorem onLink_meter (n : Fin 8) (f : LinkRecord → LinkRecord) (s : State) :
    (onLink n f s).meter = s.meter := rfl
@[simp] theorem onLink_alarm (n : Fin 8) (f : LinkRecord → LinkRecord) (s : State) :
    (onLink n f s).alarm = s.alarm := rfl
@[simp] theorem onLink_cue (n : Fin 8) (f : LinkRecord → LinkRecord) (s : State) :
    (onLink n f s).cue = s.cue := rfl
@[simp] theorem onLink_relay (n : Fin 8) (f : LinkRecord → LinkRecord) (s : State) :
    (onLink n f s).relay = s.relay := rfl
@[simp] theorem onLink_port (n : Fin 8) (f : LinkRecord → LinkRecord) (s : State) :
    (onLink n f s).port = s.port := rfl
@[simp] theorem onLink_mail (n : Fin 8) (f : LinkRecord → LinkRecord) (s : State) :
    (onLink n f s).mail = s.mail := rfl

@[simp] theorem onDecoder_pending (n : Fin 8) (f : DecoderRecord → DecoderRecord) (s : State) :
    (onDecoder n f s).pending = s.pending := rfl
@[simp] theorem onDecoder_system (n : Fin 8) (f : DecoderRecord → DecoderRecord) (s : State) :
    (onDecoder n f s).system = s.system := rfl
@[simp] theorem onDecoder_screens (n : Fin 8) (f : DecoderRecord → DecoderRecord) (s : State) :
    (onDecoder n f s).screens = s.screens := rfl
@[simp] theorem onDecoder_links (n : Fin 8) (f : DecoderRecord → DecoderRecord) (s : State) :
    (onDecoder n f s).links = s.links := rfl
@[simp] theorem onDecoder_decoder (n : Fin 8) (f : DecoderRecord → DecoderRecord) (s : State) :
    (onDecoder n f s).decoder = update s.decoder n f := rfl
@[simp] theorem onDecoder_gain (n : Fin 8) (f : DecoderRecord → DecoderRecord) (s : State) :
    (onDecoder n f s).gain = s.gain := rfl
@[simp] theorem onDecoder_bank (n : Fin 8) (f : DecoderRecord → DecoderRecord) (s : State) :
    (onDecoder n f s).bank = s.bank := rfl
@[simp] theorem onDecoder_library (n : Fin 8) (f : DecoderRecord → DecoderRecord) (s : State) :
    (onDecoder n f s).library = s.library := rfl
@[simp] theorem onDecoder_memory (n : Fin 8) (f : DecoderRecord → DecoderRecord) (s : State) :
    (onDecoder n f s).memory = s.memory := rfl
@[simp] theorem onDecoder_engine (n : Fin 8) (f : DecoderRecord → DecoderRecord) (s : State) :
    (onDecoder n f s).engine = s.engine := rfl
@[simp] theorem onDecoder_meter (n : Fin 8) (f : DecoderRecord → DecoderRecord) (s : State) :
    (onDecoder n f s).meter = s.meter := rfl
@[simp] theorem onDecoder_alarm (n : Fin 8) (f : DecoderRecord → DecoderRecord) (s : State) :
    (onDecoder n f s).alarm = s.alarm := rfl
@[simp] theorem onDecoder_cue (n : Fin 8) (f : DecoderRecord → DecoderRecord) (s : State) :
    (onDecoder n f s).cue = s.cue := rfl
@[simp] theorem onDecoder_relay (n : Fin 8) (f : DecoderRecord → DecoderRecord) (s : State) :
    (onDecoder n f s).relay = s.relay := rfl
@[simp] theorem onDecoder_port (n : Fin 8) (f : DecoderRecord → DecoderRecord) (s : State) :
    (onDecoder n f s).port = s.port := rfl
@[simp] theorem onDecoder_mail (n : Fin 8) (f : DecoderRecord → DecoderRecord) (s : State) :
    (onDecoder n f s).mail = s.mail := rfl

@[simp] theorem onLevel_pending (n : Fin 8) (f : MasterLevel → MasterLevel) (s : State) :
    (onLevel n f s).pending = s.pending := rfl
@[simp] theorem onLevel_system (n : Fin 8) (f : MasterLevel → MasterLevel) (s : State) :
    (onLevel n f s).system = s.system := rfl
@[simp] theorem onLevel_screens (n : Fin 8) (f : MasterLevel → MasterLevel) (s : State) :
    (onLevel n f s).screens = s.screens := rfl
@[simp] theorem onLevel_links (n : Fin 8) (f : MasterLevel → MasterLevel) (s : State) :
    (onLevel n f s).links = s.links := rfl
@[simp] theorem onLevel_decoder (n : Fin 8) (f : MasterLevel → MasterLevel) (s : State) :
    (onLevel n f s).decoder = s.decoder := rfl
@[simp] theorem onLevel_gain_levels (n : Fin 8) (f : MasterLevel → MasterLevel) (s : State) :
    (onLevel n f s).gain.levels = update s.gain.levels n f := rfl
@[simp] theorem onLevel_gain_law (n : Fin 8) (f : MasterLevel → MasterLevel) (s : State) :
    (onLevel n f s).gain.law = s.gain.law := rfl
@[simp] theorem onLevel_bank (n : Fin 8) (f : MasterLevel → MasterLevel) (s : State) :
    (onLevel n f s).bank = s.bank := rfl
@[simp] theorem onLevel_library (n : Fin 8) (f : MasterLevel → MasterLevel) (s : State) :
    (onLevel n f s).library = s.library := rfl
@[simp] theorem onLevel_memory (n : Fin 8) (f : MasterLevel → MasterLevel) (s : State) :
    (onLevel n f s).memory = s.memory := rfl
@[simp] theorem onLevel_engine (n : Fin 8) (f : MasterLevel → MasterLevel) (s : State) :
    (onLevel n f s).engine = s.engine := rfl
@[simp] theorem onLevel_meter (n : Fin 8) (f : MasterLevel → MasterLevel) (s : State) :
    (onLevel n f s).meter = s.meter := rfl
@[simp] theorem onLevel_alarm (n : Fin 8) (f : MasterLevel → MasterLevel) (s : State) :
    (onLevel n f s).alarm = s.alarm := rfl
@[simp] theorem onLevel_cue (n : Fin 8) (f : MasterLevel → MasterLevel) (s : State) :
    (onLevel n f s).cue = s.cue := rfl
@[simp] theorem onLevel_relay (n : Fin 8) (f : MasterLevel → MasterLevel) (s : State) :
    (onLevel n f s).relay = s.relay := rfl
@[simp] theorem onLevel_port (n : Fin 8) (f : MasterLevel → MasterLevel) (s : State) :
    (onLevel n f s).port = s.port := rfl
@[simp] theorem onLevel_mail (n : Fin 8) (f : MasterLevel → MasterLevel) (s : State) :
    (onLevel n f s).mail = s.mail := rfl

@[simp] theorem onBank_pending (n : Fin 8) (b : Bank) (s : State) :
    (onBank n b s).pending = s.pending := rfl
@[simp] theorem onBank_system (n : Fin 8) (b : Bank) (s : State) :
    (onBank n b s).system = s.system := rfl
@[simp] theorem onBank_screens (n : Fin 8) (b : Bank) (s : State) :
    (onBank n b s).screens = s.screens := rfl
@[simp] theorem onBank_links (n : Fin 8) (b : Bank) (s : State) :
    (onBank n b s).links = s.links := rfl
@[simp] theorem onBank_decoder (n : Fin 8) (b : Bank) (s : State) :
    (onBank n b s).decoder = s.decoder := rfl
@[simp] theorem onBank_gain (n : Fin 8) (b : Bank) (s : State) :
    (onBank n b s).gain = s.gain := rfl
@[simp] theorem onBank_bank_banks (n : Fin 8) (b : Bank) (s : State) :
    (onBank n b s).bank.banks = update s.bank.banks n fun _ => b := rfl
@[simp] theorem onBank_bank_drafts (n : Fin 8) (b : Bank) (s : State) :
    (onBank n b s).bank.drafts = s.bank.drafts := rfl
@[simp] theorem onBank_library (n : Fin 8) (b : Bank) (s : State) :
    (onBank n b s).library = s.library := rfl
@[simp] theorem onBank_memory (n : Fin 8) (b : Bank) (s : State) :
    (onBank n b s).memory = s.memory := rfl
@[simp] theorem onBank_engine (n : Fin 8) (b : Bank) (s : State) :
    (onBank n b s).engine = s.engine := rfl
@[simp] theorem onBank_meter (n : Fin 8) (b : Bank) (s : State) :
    (onBank n b s).meter = s.meter := rfl
@[simp] theorem onBank_alarm (n : Fin 8) (b : Bank) (s : State) :
    (onBank n b s).alarm = s.alarm := rfl
@[simp] theorem onBank_cue (n : Fin 8) (b : Bank) (s : State) :
    (onBank n b s).cue = s.cue := rfl
@[simp] theorem onBank_relay (n : Fin 8) (b : Bank) (s : State) :
    (onBank n b s).relay = s.relay := rfl
@[simp] theorem onBank_port (n : Fin 8) (b : Bank) (s : State) :
    (onBank n b s).port = s.port := rfl
@[simp] theorem onBank_mail (n : Fin 8) (b : Bank) (s : State) :
    (onBank n b s).mail = s.mail := rfl

@[simp] theorem onDraft_pending (n : Fin 8) (f : Option Draft → Option Draft) (s : State) :
    (onDraft n f s).pending = s.pending := rfl
@[simp] theorem onDraft_system (n : Fin 8) (f : Option Draft → Option Draft) (s : State) :
    (onDraft n f s).system = s.system := rfl
@[simp] theorem onDraft_screens (n : Fin 8) (f : Option Draft → Option Draft) (s : State) :
    (onDraft n f s).screens = s.screens := rfl
@[simp] theorem onDraft_links (n : Fin 8) (f : Option Draft → Option Draft) (s : State) :
    (onDraft n f s).links = s.links := rfl
@[simp] theorem onDraft_decoder (n : Fin 8) (f : Option Draft → Option Draft) (s : State) :
    (onDraft n f s).decoder = s.decoder := rfl
@[simp] theorem onDraft_gain (n : Fin 8) (f : Option Draft → Option Draft) (s : State) :
    (onDraft n f s).gain = s.gain := rfl
@[simp] theorem onDraft_bank_banks (n : Fin 8) (f : Option Draft → Option Draft) (s : State) :
    (onDraft n f s).bank.banks = s.bank.banks := rfl
@[simp] theorem onDraft_bank_drafts (n : Fin 8) (f : Option Draft → Option Draft) (s : State) :
    (onDraft n f s).bank.drafts = update s.bank.drafts n f := rfl
@[simp] theorem onDraft_library (n : Fin 8) (f : Option Draft → Option Draft) (s : State) :
    (onDraft n f s).library = s.library := rfl
@[simp] theorem onDraft_memory (n : Fin 8) (f : Option Draft → Option Draft) (s : State) :
    (onDraft n f s).memory = s.memory := rfl
@[simp] theorem onDraft_engine (n : Fin 8) (f : Option Draft → Option Draft) (s : State) :
    (onDraft n f s).engine = s.engine := rfl
@[simp] theorem onDraft_meter (n : Fin 8) (f : Option Draft → Option Draft) (s : State) :
    (onDraft n f s).meter = s.meter := rfl
@[simp] theorem onDraft_alarm (n : Fin 8) (f : Option Draft → Option Draft) (s : State) :
    (onDraft n f s).alarm = s.alarm := rfl
@[simp] theorem onDraft_cue (n : Fin 8) (f : Option Draft → Option Draft) (s : State) :
    (onDraft n f s).cue = s.cue := rfl
@[simp] theorem onDraft_relay (n : Fin 8) (f : Option Draft → Option Draft) (s : State) :
    (onDraft n f s).relay = s.relay := rfl
@[simp] theorem onDraft_port (n : Fin 8) (f : Option Draft → Option Draft) (s : State) :
    (onDraft n f s).port = s.port := rfl
@[simp] theorem onDraft_mail (n : Fin 8) (f : Option Draft → Option Draft) (s : State) :
    (onDraft n f s).mail = s.mail := rfl

@[simp] theorem onSlot_pending (k : Fin 48) (f : Slot → Slot) (s : State) :
    (onSlot k f s).pending = s.pending := rfl
@[simp] theorem onSlot_system (k : Fin 48) (f : Slot → Slot) (s : State) :
    (onSlot k f s).system = s.system := rfl
@[simp] theorem onSlot_screens (k : Fin 48) (f : Slot → Slot) (s : State) :
    (onSlot k f s).screens = s.screens := rfl
@[simp] theorem onSlot_links (k : Fin 48) (f : Slot → Slot) (s : State) :
    (onSlot k f s).links = s.links := rfl
@[simp] theorem onSlot_decoder (k : Fin 48) (f : Slot → Slot) (s : State) :
    (onSlot k f s).decoder = s.decoder := rfl
@[simp] theorem onSlot_gain (k : Fin 48) (f : Slot → Slot) (s : State) :
    (onSlot k f s).gain = s.gain := rfl
@[simp] theorem onSlot_bank (k : Fin 48) (f : Slot → Slot) (s : State) :
    (onSlot k f s).bank = s.bank := rfl
@[simp] theorem onSlot_library_slots (k : Fin 48) (f : Slot → Slot) (s : State) :
    (onSlot k f s).library.slots = update s.library.slots k f := rfl
@[simp] theorem onSlot_library_queue (k : Fin 48) (f : Slot → Slot) (s : State) :
    (onSlot k f s).library.queue = s.library.queue := rfl
@[simp] theorem onSlot_library_progress (k : Fin 48) (f : Slot → Slot) (s : State) :
    (onSlot k f s).library.progress = s.library.progress := rfl
@[simp] theorem onSlot_library_buffer (k : Fin 48) (f : Slot → Slot) (s : State) :
    (onSlot k f s).library.buffer = s.library.buffer := rfl
@[simp] theorem onSlot_memory (k : Fin 48) (f : Slot → Slot) (s : State) :
    (onSlot k f s).memory = s.memory := rfl
@[simp] theorem onSlot_engine (k : Fin 48) (f : Slot → Slot) (s : State) :
    (onSlot k f s).engine = s.engine := rfl
@[simp] theorem onSlot_meter (k : Fin 48) (f : Slot → Slot) (s : State) :
    (onSlot k f s).meter = s.meter := rfl
@[simp] theorem onSlot_alarm (k : Fin 48) (f : Slot → Slot) (s : State) :
    (onSlot k f s).alarm = s.alarm := rfl
@[simp] theorem onSlot_cue (k : Fin 48) (f : Slot → Slot) (s : State) :
    (onSlot k f s).cue = s.cue := rfl
@[simp] theorem onSlot_relay (k : Fin 48) (f : Slot → Slot) (s : State) :
    (onSlot k f s).relay = s.relay := rfl
@[simp] theorem onSlot_port (k : Fin 48) (f : Slot → Slot) (s : State) :
    (onSlot k f s).port = s.port := rfl
@[simp] theorem onSlot_mail (k : Fin 48) (f : Slot → Slot) (s : State) :
    (onSlot k f s).mail = s.mail := rfl

@[simp] theorem onRing_pending (k : Fin 128) (f : RingRecord → RingRecord) (s : State) :
    (onRing k f s).pending = s.pending := rfl
@[simp] theorem onRing_system (k : Fin 128) (f : RingRecord → RingRecord) (s : State) :
    (onRing k f s).system = s.system := rfl
@[simp] theorem onRing_screens (k : Fin 128) (f : RingRecord → RingRecord) (s : State) :
    (onRing k f s).screens = s.screens := rfl
@[simp] theorem onRing_links (k : Fin 128) (f : RingRecord → RingRecord) (s : State) :
    (onRing k f s).links = s.links := rfl
@[simp] theorem onRing_decoder (k : Fin 128) (f : RingRecord → RingRecord) (s : State) :
    (onRing k f s).decoder = s.decoder := rfl
@[simp] theorem onRing_gain (k : Fin 128) (f : RingRecord → RingRecord) (s : State) :
    (onRing k f s).gain = s.gain := rfl
@[simp] theorem onRing_bank (k : Fin 128) (f : RingRecord → RingRecord) (s : State) :
    (onRing k f s).bank = s.bank := rfl
@[simp] theorem onRing_library (k : Fin 128) (f : RingRecord → RingRecord) (s : State) :
    (onRing k f s).library = s.library := rfl
@[simp] theorem onRing_memory_rings (k : Fin 128) (f : RingRecord → RingRecord) (s : State) :
    (onRing k f s).memory.rings = update s.memory.rings k f := rfl
@[simp] theorem onRing_memory_state (k : Fin 128) (f : RingRecord → RingRecord) (s : State) :
    (onRing k f s).memory.state = s.memory.state := rfl
@[simp] theorem onRing_memory_step (k : Fin 128) (f : RingRecord → RingRecord) (s : State) :
    (onRing k f s).memory.step = s.memory.step := rfl
@[simp] theorem onRing_memory_pending (k : Fin 128) (f : RingRecord → RingRecord) (s : State) :
    (onRing k f s).memory.pending = s.memory.pending := rfl
@[simp] theorem onRing_memory_forced (k : Fin 128) (f : RingRecord → RingRecord) (s : State) :
    (onRing k f s).memory.forced = s.memory.forced := rfl
@[simp] theorem onRing_memory_timerRunning (k : Fin 128) (f : RingRecord → RingRecord) (s : State) :
    (onRing k f s).memory.timerRunning = s.memory.timerRunning := rfl
@[simp] theorem onRing_memory_bus (k : Fin 128) (f : RingRecord → RingRecord) (s : State) :
    (onRing k f s).memory.bus = s.memory.bus := rfl
@[simp] theorem onRing_memory_ringList (k : Fin 128) (f : RingRecord → RingRecord) (s : State) :
    (onRing k f s).memory.ringList = s.memory.ringList := rfl
@[simp] theorem onRing_memory_libraryRequest (k : Fin 128) (f : RingRecord → RingRecord) (s : State) :
    (onRing k f s).memory.libraryRequest = s.memory.libraryRequest := rfl
@[simp] theorem onRing_memory_sdram (k : Fin 128) (f : RingRecord → RingRecord) (s : State) :
    (onRing k f s).memory.sdram = s.memory.sdram := rfl
@[simp] theorem onRing_engine (k : Fin 128) (f : RingRecord → RingRecord) (s : State) :
    (onRing k f s).engine = s.engine := rfl
@[simp] theorem onRing_meter (k : Fin 128) (f : RingRecord → RingRecord) (s : State) :
    (onRing k f s).meter = s.meter := rfl
@[simp] theorem onRing_alarm (k : Fin 128) (f : RingRecord → RingRecord) (s : State) :
    (onRing k f s).alarm = s.alarm := rfl
@[simp] theorem onRing_cue (k : Fin 128) (f : RingRecord → RingRecord) (s : State) :
    (onRing k f s).cue = s.cue := rfl
@[simp] theorem onRing_relay (k : Fin 128) (f : RingRecord → RingRecord) (s : State) :
    (onRing k f s).relay = s.relay := rfl
@[simp] theorem onRing_port (k : Fin 128) (f : RingRecord → RingRecord) (s : State) :
    (onRing k f s).port = s.port := rfl
@[simp] theorem onRing_mail (k : Fin 128) (f : RingRecord → RingRecord) (s : State) :
    (onRing k f s).mail = s.mail := rfl

@[simp] theorem setBus_pending (b : BusOperation) (s : State) :
    (setBus b s).pending = s.pending := rfl
@[simp] theorem setBus_system (b : BusOperation) (s : State) :
    (setBus b s).system = s.system := rfl
@[simp] theorem setBus_screens (b : BusOperation) (s : State) :
    (setBus b s).screens = s.screens := rfl
@[simp] theorem setBus_links (b : BusOperation) (s : State) :
    (setBus b s).links = s.links := rfl
@[simp] theorem setBus_decoder (b : BusOperation) (s : State) :
    (setBus b s).decoder = s.decoder := rfl
@[simp] theorem setBus_gain (b : BusOperation) (s : State) :
    (setBus b s).gain = s.gain := rfl
@[simp] theorem setBus_bank (b : BusOperation) (s : State) :
    (setBus b s).bank = s.bank := rfl
@[simp] theorem setBus_library (b : BusOperation) (s : State) :
    (setBus b s).library = s.library := rfl
@[simp] theorem setBus_memory_bus (b : BusOperation) (s : State) :
    (setBus b s).memory.bus = b := rfl
@[simp] theorem setBus_memory_rings (b : BusOperation) (s : State) :
    (setBus b s).memory.rings = s.memory.rings := rfl
@[simp] theorem setBus_memory_state (b : BusOperation) (s : State) :
    (setBus b s).memory.state = s.memory.state := rfl
@[simp] theorem setBus_memory_step (b : BusOperation) (s : State) :
    (setBus b s).memory.step = s.memory.step := rfl
@[simp] theorem setBus_memory_pending (b : BusOperation) (s : State) :
    (setBus b s).memory.pending = s.memory.pending := rfl
@[simp] theorem setBus_memory_forced (b : BusOperation) (s : State) :
    (setBus b s).memory.forced = s.memory.forced := rfl
@[simp] theorem setBus_memory_timerRunning (b : BusOperation) (s : State) :
    (setBus b s).memory.timerRunning = s.memory.timerRunning := rfl
@[simp] theorem setBus_memory_ringList (b : BusOperation) (s : State) :
    (setBus b s).memory.ringList = s.memory.ringList := rfl
@[simp] theorem setBus_memory_libraryRequest (b : BusOperation) (s : State) :
    (setBus b s).memory.libraryRequest = s.memory.libraryRequest := rfl
@[simp] theorem setBus_memory_sdram (b : BusOperation) (s : State) :
    (setBus b s).memory.sdram = s.memory.sdram := rfl
@[simp] theorem setBus_engine (b : BusOperation) (s : State) :
    (setBus b s).engine = s.engine := rfl
@[simp] theorem setBus_meter (b : BusOperation) (s : State) :
    (setBus b s).meter = s.meter := rfl
@[simp] theorem setBus_alarm (b : BusOperation) (s : State) :
    (setBus b s).alarm = s.alarm := rfl
@[simp] theorem setBus_cue (b : BusOperation) (s : State) :
    (setBus b s).cue = s.cue := rfl
@[simp] theorem setBus_relay (b : BusOperation) (s : State) :
    (setBus b s).relay = s.relay := rfl
@[simp] theorem setBus_port (b : BusOperation) (s : State) :
    (setBus b s).port = s.port := rfl
@[simp] theorem setBus_mail (b : BusOperation) (s : State) :
    (setBus b s).mail = s.mail := rfl

@[simp] theorem joinRing_pending (t : RingTransfer) (s : State) :
    (joinRing t s).pending = s.pending := rfl
@[simp] theorem joinRing_system (t : RingTransfer) (s : State) :
    (joinRing t s).system = s.system := rfl
@[simp] theorem joinRing_screens (t : RingTransfer) (s : State) :
    (joinRing t s).screens = s.screens := rfl
@[simp] theorem joinRing_links (t : RingTransfer) (s : State) :
    (joinRing t s).links = s.links := rfl
@[simp] theorem joinRing_decoder (t : RingTransfer) (s : State) :
    (joinRing t s).decoder = s.decoder := rfl
@[simp] theorem joinRing_gain (t : RingTransfer) (s : State) :
    (joinRing t s).gain = s.gain := rfl
@[simp] theorem joinRing_bank (t : RingTransfer) (s : State) :
    (joinRing t s).bank = s.bank := rfl
@[simp] theorem joinRing_library (t : RingTransfer) (s : State) :
    (joinRing t s).library = s.library := rfl
@[simp] theorem joinRing_memory_ringList (t : RingTransfer) (s : State) :
    (joinRing t s).memory.ringList = s.memory.ringList ++ [t] := rfl
@[simp] theorem joinRing_memory_rings (t : RingTransfer) (s : State) :
    (joinRing t s).memory.rings = s.memory.rings := rfl
@[simp] theorem joinRing_memory_state (t : RingTransfer) (s : State) :
    (joinRing t s).memory.state = s.memory.state := rfl
@[simp] theorem joinRing_memory_step (t : RingTransfer) (s : State) :
    (joinRing t s).memory.step = s.memory.step := rfl
@[simp] theorem joinRing_memory_pending (t : RingTransfer) (s : State) :
    (joinRing t s).memory.pending = s.memory.pending := rfl
@[simp] theorem joinRing_memory_forced (t : RingTransfer) (s : State) :
    (joinRing t s).memory.forced = s.memory.forced := rfl
@[simp] theorem joinRing_memory_timerRunning (t : RingTransfer) (s : State) :
    (joinRing t s).memory.timerRunning = s.memory.timerRunning := rfl
@[simp] theorem joinRing_memory_bus (t : RingTransfer) (s : State) :
    (joinRing t s).memory.bus = s.memory.bus := rfl
@[simp] theorem joinRing_memory_libraryRequest (t : RingTransfer) (s : State) :
    (joinRing t s).memory.libraryRequest = s.memory.libraryRequest := rfl
@[simp] theorem joinRing_memory_sdram (t : RingTransfer) (s : State) :
    (joinRing t s).memory.sdram = s.memory.sdram := rfl
@[simp] theorem joinRing_engine (t : RingTransfer) (s : State) :
    (joinRing t s).engine = s.engine := rfl
@[simp] theorem joinRing_meter (t : RingTransfer) (s : State) :
    (joinRing t s).meter = s.meter := rfl
@[simp] theorem joinRing_alarm (t : RingTransfer) (s : State) :
    (joinRing t s).alarm = s.alarm := rfl
@[simp] theorem joinRing_cue (t : RingTransfer) (s : State) :
    (joinRing t s).cue = s.cue := rfl
@[simp] theorem joinRing_relay (t : RingTransfer) (s : State) :
    (joinRing t s).relay = s.relay := rfl
@[simp] theorem joinRing_port (t : RingTransfer) (s : State) :
    (joinRing t s).port = s.port := rfl
@[simp] theorem joinRing_mail (t : RingTransfer) (s : State) :
    (joinRing t s).mail = s.mail := rfl

@[simp] theorem askBurst_pending (slot : Fin 48) (k : Nat) (w : Bool) (s : State) :
    (askBurst slot k w s).pending = s.pending := rfl
@[simp] theorem askBurst_system (slot : Fin 48) (k : Nat) (w : Bool) (s : State) :
    (askBurst slot k w s).system = s.system := rfl
@[simp] theorem askBurst_screens (slot : Fin 48) (k : Nat) (w : Bool) (s : State) :
    (askBurst slot k w s).screens = s.screens := rfl
@[simp] theorem askBurst_links (slot : Fin 48) (k : Nat) (w : Bool) (s : State) :
    (askBurst slot k w s).links = s.links := rfl
@[simp] theorem askBurst_decoder (slot : Fin 48) (k : Nat) (w : Bool) (s : State) :
    (askBurst slot k w s).decoder = s.decoder := rfl
@[simp] theorem askBurst_gain (slot : Fin 48) (k : Nat) (w : Bool) (s : State) :
    (askBurst slot k w s).gain = s.gain := rfl
@[simp] theorem askBurst_bank (slot : Fin 48) (k : Nat) (w : Bool) (s : State) :
    (askBurst slot k w s).bank = s.bank := rfl
@[simp] theorem askBurst_library (slot : Fin 48) (k : Nat) (w : Bool) (s : State) :
    (askBurst slot k w s).library = s.library := rfl
@[simp] theorem askBurst_memory_libraryRequest (slot : Fin 48) (k : Nat) (w : Bool) (s : State) :
    (askBurst slot k w s).memory.libraryRequest = some { slot := slot, number := k, write := w } := rfl
@[simp] theorem askBurst_memory_rings (slot : Fin 48) (k : Nat) (w : Bool) (s : State) :
    (askBurst slot k w s).memory.rings = s.memory.rings := rfl
@[simp] theorem askBurst_memory_state (slot : Fin 48) (k : Nat) (w : Bool) (s : State) :
    (askBurst slot k w s).memory.state = s.memory.state := rfl
@[simp] theorem askBurst_memory_step (slot : Fin 48) (k : Nat) (w : Bool) (s : State) :
    (askBurst slot k w s).memory.step = s.memory.step := rfl
@[simp] theorem askBurst_memory_pending (slot : Fin 48) (k : Nat) (w : Bool) (s : State) :
    (askBurst slot k w s).memory.pending = s.memory.pending := rfl
@[simp] theorem askBurst_memory_forced (slot : Fin 48) (k : Nat) (w : Bool) (s : State) :
    (askBurst slot k w s).memory.forced = s.memory.forced := rfl
@[simp] theorem askBurst_memory_timerRunning (slot : Fin 48) (k : Nat) (w : Bool) (s : State) :
    (askBurst slot k w s).memory.timerRunning = s.memory.timerRunning := rfl
@[simp] theorem askBurst_memory_bus (slot : Fin 48) (k : Nat) (w : Bool) (s : State) :
    (askBurst slot k w s).memory.bus = s.memory.bus := rfl
@[simp] theorem askBurst_memory_ringList (slot : Fin 48) (k : Nat) (w : Bool) (s : State) :
    (askBurst slot k w s).memory.ringList = s.memory.ringList := rfl
@[simp] theorem askBurst_memory_sdram (slot : Fin 48) (k : Nat) (w : Bool) (s : State) :
    (askBurst slot k w s).memory.sdram = s.memory.sdram := rfl
@[simp] theorem askBurst_engine (slot : Fin 48) (k : Nat) (w : Bool) (s : State) :
    (askBurst slot k w s).engine = s.engine := rfl
@[simp] theorem askBurst_meter (slot : Fin 48) (k : Nat) (w : Bool) (s : State) :
    (askBurst slot k w s).meter = s.meter := rfl
@[simp] theorem askBurst_alarm (slot : Fin 48) (k : Nat) (w : Bool) (s : State) :
    (askBurst slot k w s).alarm = s.alarm := rfl
@[simp] theorem askBurst_cue (slot : Fin 48) (k : Nat) (w : Bool) (s : State) :
    (askBurst slot k w s).cue = s.cue := rfl
@[simp] theorem askBurst_relay (slot : Fin 48) (k : Nat) (w : Bool) (s : State) :
    (askBurst slot k w s).relay = s.relay := rfl
@[simp] theorem askBurst_port (slot : Fin 48) (k : Nat) (w : Bool) (s : State) :
    (askBurst slot k w s).port = s.port := rfl
@[simp] theorem askBurst_mail (slot : Fin 48) (k : Nat) (w : Bool) (s : State) :
    (askBurst slot k w s).mail = s.mail := rfl

@[simp] theorem onChannels_pending (n : Fin 8) (f : Fin 16 → ChannelState → ChannelState) (s : State) :
    (onChannels n f s).pending = s.pending := rfl
@[simp] theorem onChannels_system (n : Fin 8) (f : Fin 16 → ChannelState → ChannelState) (s : State) :
    (onChannels n f s).system = s.system := rfl
@[simp] theorem onChannels_screens (n : Fin 8) (f : Fin 16 → ChannelState → ChannelState) (s : State) :
    (onChannels n f s).screens = s.screens := rfl
@[simp] theorem onChannels_links (n : Fin 8) (f : Fin 16 → ChannelState → ChannelState) (s : State) :
    (onChannels n f s).links = s.links := rfl
@[simp] theorem onChannels_decoder (n : Fin 8) (f : Fin 16 → ChannelState → ChannelState) (s : State) :
    (onChannels n f s).decoder = s.decoder := rfl
@[simp] theorem onChannels_gain (n : Fin 8) (f : Fin 16 → ChannelState → ChannelState) (s : State) :
    (onChannels n f s).gain = s.gain := rfl
@[simp] theorem onChannels_bank (n : Fin 8) (f : Fin 16 → ChannelState → ChannelState) (s : State) :
    (onChannels n f s).bank = s.bank := rfl
@[simp] theorem onChannels_library (n : Fin 8) (f : Fin 16 → ChannelState → ChannelState) (s : State) :
    (onChannels n f s).library = s.library := rfl
@[simp] theorem onChannels_memory (n : Fin 8) (f : Fin 16 → ChannelState → ChannelState) (s : State) :
    (onChannels n f s).memory = s.memory := rfl
@[simp] theorem onChannels_engine_channels (n : Fin 8) (f : Fin 16 → ChannelState → ChannelState) (s : State) :
    (onChannels n f s).engine.channels = update s.engine.channels n fun cs => mapWith cs f := rfl
@[simp] theorem onChannels_engine_lastServed (n : Fin 8) (f : Fin 16 → ChannelState → ChannelState) (s : State) :
    (onChannels n f s).engine.lastServed = s.engine.lastServed := rfl
@[simp] theorem onChannels_engine_service (n : Fin 8) (f : Fin 16 → ChannelState → ChannelState) (s : State) :
    (onChannels n f s).engine.service = s.engine.service := rfl
@[simp] theorem onChannels_engine_backup (n : Fin 8) (f : Fin 16 → ChannelState → ChannelState) (s : State) :
    (onChannels n f s).engine.backup = s.engine.backup := rfl
@[simp] theorem onChannels_meter (n : Fin 8) (f : Fin 16 → ChannelState → ChannelState) (s : State) :
    (onChannels n f s).meter = s.meter := rfl
@[simp] theorem onChannels_alarm (n : Fin 8) (f : Fin 16 → ChannelState → ChannelState) (s : State) :
    (onChannels n f s).alarm = s.alarm := rfl
@[simp] theorem onChannels_cue (n : Fin 8) (f : Fin 16 → ChannelState → ChannelState) (s : State) :
    (onChannels n f s).cue = s.cue := rfl
@[simp] theorem onChannels_relay (n : Fin 8) (f : Fin 16 → ChannelState → ChannelState) (s : State) :
    (onChannels n f s).relay = s.relay := rfl
@[simp] theorem onChannels_port (n : Fin 8) (f : Fin 16 → ChannelState → ChannelState) (s : State) :
    (onChannels n f s).port = s.port := rfl
@[simp] theorem onChannels_mail (n : Fin 8) (f : Fin 16 → ChannelState → ChannelState) (s : State) :
    (onChannels n f s).mail = s.mail := rfl

@[simp] theorem onChannel_pending (n : Fin 8) (c : Fin 16) (f : ChannelState → ChannelState) (s : State) :
    (onChannel n c f s).pending = s.pending := rfl
@[simp] theorem onChannel_system (n : Fin 8) (c : Fin 16) (f : ChannelState → ChannelState) (s : State) :
    (onChannel n c f s).system = s.system := rfl
@[simp] theorem onChannel_screens (n : Fin 8) (c : Fin 16) (f : ChannelState → ChannelState) (s : State) :
    (onChannel n c f s).screens = s.screens := rfl
@[simp] theorem onChannel_links (n : Fin 8) (c : Fin 16) (f : ChannelState → ChannelState) (s : State) :
    (onChannel n c f s).links = s.links := rfl
@[simp] theorem onChannel_decoder (n : Fin 8) (c : Fin 16) (f : ChannelState → ChannelState) (s : State) :
    (onChannel n c f s).decoder = s.decoder := rfl
@[simp] theorem onChannel_gain (n : Fin 8) (c : Fin 16) (f : ChannelState → ChannelState) (s : State) :
    (onChannel n c f s).gain = s.gain := rfl
@[simp] theorem onChannel_bank (n : Fin 8) (c : Fin 16) (f : ChannelState → ChannelState) (s : State) :
    (onChannel n c f s).bank = s.bank := rfl
@[simp] theorem onChannel_library (n : Fin 8) (c : Fin 16) (f : ChannelState → ChannelState) (s : State) :
    (onChannel n c f s).library = s.library := rfl
@[simp] theorem onChannel_memory (n : Fin 8) (c : Fin 16) (f : ChannelState → ChannelState) (s : State) :
    (onChannel n c f s).memory = s.memory := rfl
@[simp] theorem onChannel_engine_channels (n : Fin 8) (c : Fin 16) (f : ChannelState → ChannelState) (s : State) :
    (onChannel n c f s).engine.channels = update s.engine.channels n fun cs => update cs c f := rfl
@[simp] theorem onChannel_engine_lastServed (n : Fin 8) (c : Fin 16) (f : ChannelState → ChannelState) (s : State) :
    (onChannel n c f s).engine.lastServed = s.engine.lastServed := rfl
@[simp] theorem onChannel_engine_service (n : Fin 8) (c : Fin 16) (f : ChannelState → ChannelState) (s : State) :
    (onChannel n c f s).engine.service = s.engine.service := rfl
@[simp] theorem onChannel_engine_backup (n : Fin 8) (c : Fin 16) (f : ChannelState → ChannelState) (s : State) :
    (onChannel n c f s).engine.backup = s.engine.backup := rfl
@[simp] theorem onChannel_meter (n : Fin 8) (c : Fin 16) (f : ChannelState → ChannelState) (s : State) :
    (onChannel n c f s).meter = s.meter := rfl
@[simp] theorem onChannel_alarm (n : Fin 8) (c : Fin 16) (f : ChannelState → ChannelState) (s : State) :
    (onChannel n c f s).alarm = s.alarm := rfl
@[simp] theorem onChannel_cue (n : Fin 8) (c : Fin 16) (f : ChannelState → ChannelState) (s : State) :
    (onChannel n c f s).cue = s.cue := rfl
@[simp] theorem onChannel_relay (n : Fin 8) (c : Fin 16) (f : ChannelState → ChannelState) (s : State) :
    (onChannel n c f s).relay = s.relay := rfl
@[simp] theorem onChannel_port (n : Fin 8) (c : Fin 16) (f : ChannelState → ChannelState) (s : State) :
    (onChannel n c f s).port = s.port := rfl
@[simp] theorem onChannel_mail (n : Fin 8) (c : Fin 16) (f : ChannelState → ChannelState) (s : State) :
    (onChannel n c f s).mail = s.mail := rfl

@[simp] theorem onService_pending (f : Service → Service) (s : State) :
    (onService f s).pending = s.pending := rfl
@[simp] theorem onService_system (f : Service → Service) (s : State) :
    (onService f s).system = s.system := rfl
@[simp] theorem onService_screens (f : Service → Service) (s : State) :
    (onService f s).screens = s.screens := rfl
@[simp] theorem onService_links (f : Service → Service) (s : State) :
    (onService f s).links = s.links := rfl
@[simp] theorem onService_decoder (f : Service → Service) (s : State) :
    (onService f s).decoder = s.decoder := rfl
@[simp] theorem onService_gain (f : Service → Service) (s : State) :
    (onService f s).gain = s.gain := rfl
@[simp] theorem onService_bank (f : Service → Service) (s : State) :
    (onService f s).bank = s.bank := rfl
@[simp] theorem onService_library (f : Service → Service) (s : State) :
    (onService f s).library = s.library := rfl
@[simp] theorem onService_memory (f : Service → Service) (s : State) :
    (onService f s).memory = s.memory := rfl
@[simp] theorem onService_engine_channels (f : Service → Service) (s : State) :
    (onService f s).engine.channels = s.engine.channels := rfl
@[simp] theorem onService_engine_lastServed (f : Service → Service) (s : State) :
    (onService f s).engine.lastServed = s.engine.lastServed := rfl
@[simp] theorem onService_engine_service (f : Service → Service) (s : State) :
    (onService f s).engine.service = s.engine.service.map f := rfl
@[simp] theorem onService_engine_backup (f : Service → Service) (s : State) :
    (onService f s).engine.backup = s.engine.backup := rfl
@[simp] theorem onService_meter (f : Service → Service) (s : State) :
    (onService f s).meter = s.meter := rfl
@[simp] theorem onService_alarm (f : Service → Service) (s : State) :
    (onService f s).alarm = s.alarm := rfl
@[simp] theorem onService_cue (f : Service → Service) (s : State) :
    (onService f s).cue = s.cue := rfl
@[simp] theorem onService_relay (f : Service → Service) (s : State) :
    (onService f s).relay = s.relay := rfl
@[simp] theorem onService_port (f : Service → Service) (s : State) :
    (onService f s).port = s.port := rfl
@[simp] theorem onService_mail (f : Service → Service) (s : State) :
    (onService f s).mail = s.mail := rfl

@[simp] theorem freeEngine_pending (s : State) :
    (freeEngine s).pending = s.pending := rfl
@[simp] theorem freeEngine_system (s : State) :
    (freeEngine s).system = s.system := rfl
@[simp] theorem freeEngine_screens (s : State) :
    (freeEngine s).screens = s.screens := rfl
@[simp] theorem freeEngine_links (s : State) :
    (freeEngine s).links = s.links := rfl
@[simp] theorem freeEngine_decoder (s : State) :
    (freeEngine s).decoder = s.decoder := rfl
@[simp] theorem freeEngine_gain (s : State) :
    (freeEngine s).gain = s.gain := rfl
@[simp] theorem freeEngine_bank (s : State) :
    (freeEngine s).bank = s.bank := rfl
@[simp] theorem freeEngine_library (s : State) :
    (freeEngine s).library = s.library := rfl
@[simp] theorem freeEngine_memory (s : State) :
    (freeEngine s).memory = s.memory := rfl
@[simp] theorem freeEngine_engine_channels (s : State) :
    (freeEngine s).engine.channels = s.engine.channels := rfl
@[simp] theorem freeEngine_engine_lastServed (s : State) :
    (freeEngine s).engine.lastServed = s.engine.lastServed := rfl
@[simp] theorem freeEngine_engine_service (s : State) :
    (freeEngine s).engine.service = none := rfl
@[simp] theorem freeEngine_engine_backup (s : State) :
    (freeEngine s).engine.backup = s.engine.backup := rfl
@[simp] theorem freeEngine_meter (s : State) :
    (freeEngine s).meter = s.meter := rfl
@[simp] theorem freeEngine_alarm (s : State) :
    (freeEngine s).alarm = s.alarm := rfl
@[simp] theorem freeEngine_cue (s : State) :
    (freeEngine s).cue = s.cue := rfl
@[simp] theorem freeEngine_relay (s : State) :
    (freeEngine s).relay = s.relay := rfl
@[simp] theorem freeEngine_port (s : State) :
    (freeEngine s).port = s.port := rfl
@[simp] theorem freeEngine_mail (s : State) :
    (freeEngine s).mail = s.mail := rfl

@[simp] theorem onPort_pending (p : Port) (f : PortRecord → PortRecord) (s : State) :
    (onPort p f s).pending = s.pending := rfl
@[simp] theorem onPort_system (p : Port) (f : PortRecord → PortRecord) (s : State) :
    (onPort p f s).system = s.system := rfl
@[simp] theorem onPort_screens (p : Port) (f : PortRecord → PortRecord) (s : State) :
    (onPort p f s).screens = s.screens := rfl
@[simp] theorem onPort_links (p : Port) (f : PortRecord → PortRecord) (s : State) :
    (onPort p f s).links = s.links := rfl
@[simp] theorem onPort_decoder (p : Port) (f : PortRecord → PortRecord) (s : State) :
    (onPort p f s).decoder = s.decoder := rfl
@[simp] theorem onPort_gain (p : Port) (f : PortRecord → PortRecord) (s : State) :
    (onPort p f s).gain = s.gain := rfl
@[simp] theorem onPort_bank (p : Port) (f : PortRecord → PortRecord) (s : State) :
    (onPort p f s).bank = s.bank := rfl
@[simp] theorem onPort_library (p : Port) (f : PortRecord → PortRecord) (s : State) :
    (onPort p f s).library = s.library := rfl
@[simp] theorem onPort_memory (p : Port) (f : PortRecord → PortRecord) (s : State) :
    (onPort p f s).memory = s.memory := rfl
@[simp] theorem onPort_engine (p : Port) (f : PortRecord → PortRecord) (s : State) :
    (onPort p f s).engine = s.engine := rfl
@[simp] theorem onPort_meter (p : Port) (f : PortRecord → PortRecord) (s : State) :
    (onPort p f s).meter = s.meter := rfl
@[simp] theorem onPort_alarm (p : Port) (f : PortRecord → PortRecord) (s : State) :
    (onPort p f s).alarm = s.alarm := rfl
@[simp] theorem onPort_cue (p : Port) (f : PortRecord → PortRecord) (s : State) :
    (onPort p f s).cue = s.cue := rfl
@[simp] theorem onPort_relay (p : Port) (f : PortRecord → PortRecord) (s : State) :
    (onPort p f s).relay = s.relay := rfl
@[simp] theorem onPort_port_ports (p : Port) (f : PortRecord → PortRecord) (s : State) :
    (onPort p f s).port.ports = update s.port.ports (portIndex p) f := rfl
@[simp] theorem onPort_port_lastServed (p : Port) (f : PortRecord → PortRecord) (s : State) :
    (onPort p f s).port.lastServed = s.port.lastServed := rfl
@[simp] theorem onPort_mail (p : Port) (f : PortRecord → PortRecord) (s : State) :
    (onPort p f s).mail = s.mail := rfl

@[simp] theorem onRelay_pending (f : RelayMaster → RelayMaster) (s : State) :
    (onRelay f s).pending = s.pending := rfl
@[simp] theorem onRelay_system (f : RelayMaster → RelayMaster) (s : State) :
    (onRelay f s).system = s.system := rfl
@[simp] theorem onRelay_screens (f : RelayMaster → RelayMaster) (s : State) :
    (onRelay f s).screens = s.screens := rfl
@[simp] theorem onRelay_links (f : RelayMaster → RelayMaster) (s : State) :
    (onRelay f s).links = s.links := rfl
@[simp] theorem onRelay_decoder (f : RelayMaster → RelayMaster) (s : State) :
    (onRelay f s).decoder = s.decoder := rfl
@[simp] theorem onRelay_gain (f : RelayMaster → RelayMaster) (s : State) :
    (onRelay f s).gain = s.gain := rfl
@[simp] theorem onRelay_bank (f : RelayMaster → RelayMaster) (s : State) :
    (onRelay f s).bank = s.bank := rfl
@[simp] theorem onRelay_library (f : RelayMaster → RelayMaster) (s : State) :
    (onRelay f s).library = s.library := rfl
@[simp] theorem onRelay_memory (f : RelayMaster → RelayMaster) (s : State) :
    (onRelay f s).memory = s.memory := rfl
@[simp] theorem onRelay_engine (f : RelayMaster → RelayMaster) (s : State) :
    (onRelay f s).engine = s.engine := rfl
@[simp] theorem onRelay_meter (f : RelayMaster → RelayMaster) (s : State) :
    (onRelay f s).meter = s.meter := rfl
@[simp] theorem onRelay_alarm (f : RelayMaster → RelayMaster) (s : State) :
    (onRelay f s).alarm = s.alarm := rfl
@[simp] theorem onRelay_cue (f : RelayMaster → RelayMaster) (s : State) :
    (onRelay f s).cue = s.cue := rfl
@[simp] theorem onRelay_relay (f : RelayMaster → RelayMaster) (s : State) :
    (onRelay f s).relay = f s.relay := rfl
@[simp] theorem onRelay_port (f : RelayMaster → RelayMaster) (s : State) :
    (onRelay f s).port = s.port := rfl
@[simp] theorem onRelay_mail (f : RelayMaster → RelayMaster) (s : State) :
    (onRelay f s).mail = s.mail := rfl

@[simp] theorem onSchedule_pending (n : Fin 8) (f : Schedule → Schedule) (s : State) :
    (onSchedule n f s).pending = s.pending := rfl
@[simp] theorem onSchedule_system (n : Fin 8) (f : Schedule → Schedule) (s : State) :
    (onSchedule n f s).system = s.system := rfl
@[simp] theorem onSchedule_screens (n : Fin 8) (f : Schedule → Schedule) (s : State) :
    (onSchedule n f s).screens = s.screens := rfl
@[simp] theorem onSchedule_links (n : Fin 8) (f : Schedule → Schedule) (s : State) :
    (onSchedule n f s).links = s.links := rfl
@[simp] theorem onSchedule_decoder (n : Fin 8) (f : Schedule → Schedule) (s : State) :
    (onSchedule n f s).decoder = s.decoder := rfl
@[simp] theorem onSchedule_gain (n : Fin 8) (f : Schedule → Schedule) (s : State) :
    (onSchedule n f s).gain = s.gain := rfl
@[simp] theorem onSchedule_bank (n : Fin 8) (f : Schedule → Schedule) (s : State) :
    (onSchedule n f s).bank = s.bank := rfl
@[simp] theorem onSchedule_library (n : Fin 8) (f : Schedule → Schedule) (s : State) :
    (onSchedule n f s).library = s.library := rfl
@[simp] theorem onSchedule_memory (n : Fin 8) (f : Schedule → Schedule) (s : State) :
    (onSchedule n f s).memory = s.memory := rfl
@[simp] theorem onSchedule_engine (n : Fin 8) (f : Schedule → Schedule) (s : State) :
    (onSchedule n f s).engine = s.engine := rfl
@[simp] theorem onSchedule_meter (n : Fin 8) (f : Schedule → Schedule) (s : State) :
    (onSchedule n f s).meter = s.meter := rfl
@[simp] theorem onSchedule_alarm (n : Fin 8) (f : Schedule → Schedule) (s : State) :
    (onSchedule n f s).alarm = s.alarm := rfl
@[simp] theorem onSchedule_cue_pool (n : Fin 8) (f : Schedule → Schedule) (s : State) :
    (onSchedule n f s).cue.pool = s.cue.pool := rfl
@[simp] theorem onSchedule_cue_schedules (n : Fin 8) (f : Schedule → Schedule) (s : State) :
    (onSchedule n f s).cue.schedules = update s.cue.schedules n f := rfl
@[simp] theorem onSchedule_cue_lines (n : Fin 8) (f : Schedule → Schedule) (s : State) :
    (onSchedule n f s).cue.lines = s.cue.lines := rfl
@[simp] theorem onSchedule_relay (n : Fin 8) (f : Schedule → Schedule) (s : State) :
    (onSchedule n f s).relay = s.relay := rfl
@[simp] theorem onSchedule_port (n : Fin 8) (f : Schedule → Schedule) (s : State) :
    (onSchedule n f s).port = s.port := rfl
@[simp] theorem onSchedule_mail (n : Fin 8) (f : Schedule → Schedule) (s : State) :
    (onSchedule n f s).mail = s.mail := rfl

@[simp] theorem onPool_pending (f : List Cue → List Cue) (s : State) :
    (onPool f s).pending = s.pending := rfl
@[simp] theorem onPool_system (f : List Cue → List Cue) (s : State) :
    (onPool f s).system = s.system := rfl
@[simp] theorem onPool_screens (f : List Cue → List Cue) (s : State) :
    (onPool f s).screens = s.screens := rfl
@[simp] theorem onPool_links (f : List Cue → List Cue) (s : State) :
    (onPool f s).links = s.links := rfl
@[simp] theorem onPool_decoder (f : List Cue → List Cue) (s : State) :
    (onPool f s).decoder = s.decoder := rfl
@[simp] theorem onPool_gain (f : List Cue → List Cue) (s : State) :
    (onPool f s).gain = s.gain := rfl
@[simp] theorem onPool_bank (f : List Cue → List Cue) (s : State) :
    (onPool f s).bank = s.bank := rfl
@[simp] theorem onPool_library (f : List Cue → List Cue) (s : State) :
    (onPool f s).library = s.library := rfl
@[simp] theorem onPool_memory (f : List Cue → List Cue) (s : State) :
    (onPool f s).memory = s.memory := rfl
@[simp] theorem onPool_engine (f : List Cue → List Cue) (s : State) :
    (onPool f s).engine = s.engine := rfl
@[simp] theorem onPool_meter (f : List Cue → List Cue) (s : State) :
    (onPool f s).meter = s.meter := rfl
@[simp] theorem onPool_alarm (f : List Cue → List Cue) (s : State) :
    (onPool f s).alarm = s.alarm := rfl
@[simp] theorem onPool_cue_pool (f : List Cue → List Cue) (s : State) :
    (onPool f s).cue.pool = f s.cue.pool := rfl
@[simp] theorem onPool_cue_schedules (f : List Cue → List Cue) (s : State) :
    (onPool f s).cue.schedules = s.cue.schedules := rfl
@[simp] theorem onPool_cue_lines (f : List Cue → List Cue) (s : State) :
    (onPool f s).cue.lines = s.cue.lines := rfl
@[simp] theorem onPool_relay (f : List Cue → List Cue) (s : State) :
    (onPool f s).relay = s.relay := rfl
@[simp] theorem onPool_port (f : List Cue → List Cue) (s : State) :
    (onPool f s).port = s.port := rfl
@[simp] theorem onPool_mail (f : List Cue → List Cue) (s : State) :
    (onPool f s).mail = s.mail := rfl

@[simp] theorem driveCueLine_pending (i : Fin 8) (d : LineDrive) (s : State) :
    (driveCueLine i d s).pending = s.pending := rfl
@[simp] theorem driveCueLine_system (i : Fin 8) (d : LineDrive) (s : State) :
    (driveCueLine i d s).system = s.system := rfl
@[simp] theorem driveCueLine_screens (i : Fin 8) (d : LineDrive) (s : State) :
    (driveCueLine i d s).screens = s.screens := rfl
@[simp] theorem driveCueLine_links (i : Fin 8) (d : LineDrive) (s : State) :
    (driveCueLine i d s).links = s.links := rfl
@[simp] theorem driveCueLine_decoder (i : Fin 8) (d : LineDrive) (s : State) :
    (driveCueLine i d s).decoder = s.decoder := rfl
@[simp] theorem driveCueLine_gain (i : Fin 8) (d : LineDrive) (s : State) :
    (driveCueLine i d s).gain = s.gain := rfl
@[simp] theorem driveCueLine_bank (i : Fin 8) (d : LineDrive) (s : State) :
    (driveCueLine i d s).bank = s.bank := rfl
@[simp] theorem driveCueLine_library (i : Fin 8) (d : LineDrive) (s : State) :
    (driveCueLine i d s).library = s.library := rfl
@[simp] theorem driveCueLine_memory (i : Fin 8) (d : LineDrive) (s : State) :
    (driveCueLine i d s).memory = s.memory := rfl
@[simp] theorem driveCueLine_engine (i : Fin 8) (d : LineDrive) (s : State) :
    (driveCueLine i d s).engine = s.engine := rfl
@[simp] theorem driveCueLine_meter (i : Fin 8) (d : LineDrive) (s : State) :
    (driveCueLine i d s).meter = s.meter := rfl
@[simp] theorem driveCueLine_alarm (i : Fin 8) (d : LineDrive) (s : State) :
    (driveCueLine i d s).alarm = s.alarm := rfl
@[simp] theorem driveCueLine_cue_pool (i : Fin 8) (d : LineDrive) (s : State) :
    (driveCueLine i d s).cue.pool = s.cue.pool := rfl
@[simp] theorem driveCueLine_cue_schedules (i : Fin 8) (d : LineDrive) (s : State) :
    (driveCueLine i d s).cue.schedules = s.cue.schedules := rfl
@[simp] theorem driveCueLine_cue_lines (i : Fin 8) (d : LineDrive) (s : State) :
    (driveCueLine i d s).cue.lines = update s.cue.lines i (driven d) := rfl
@[simp] theorem driveCueLine_relay (i : Fin 8) (d : LineDrive) (s : State) :
    (driveCueLine i d s).relay = s.relay := rfl
@[simp] theorem driveCueLine_port (i : Fin 8) (d : LineDrive) (s : State) :
    (driveCueLine i d s).port = s.port := rfl
@[simp] theorem driveCueLine_mail (i : Fin 8) (d : LineDrive) (s : State) :
    (driveCueLine i d s).mail = s.mail := rfl

@[simp] theorem changeAlarm_pending (f : AlarmHandler → AlarmHandler) (s : State) :
    (changeAlarm f s).pending = s.pending := rfl
@[simp] theorem changeAlarm_system (f : AlarmHandler → AlarmHandler) (s : State) :
    (changeAlarm f s).system = s.system := rfl
@[simp] theorem changeAlarm_screens (f : AlarmHandler → AlarmHandler) (s : State) :
    (changeAlarm f s).screens = s.screens := rfl
@[simp] theorem changeAlarm_links (f : AlarmHandler → AlarmHandler) (s : State) :
    (changeAlarm f s).links = s.links := rfl
@[simp] theorem changeAlarm_decoder (f : AlarmHandler → AlarmHandler) (s : State) :
    (changeAlarm f s).decoder = s.decoder := rfl
@[simp] theorem changeAlarm_gain (f : AlarmHandler → AlarmHandler) (s : State) :
    (changeAlarm f s).gain = s.gain := rfl
@[simp] theorem changeAlarm_bank (f : AlarmHandler → AlarmHandler) (s : State) :
    (changeAlarm f s).bank = s.bank := rfl
@[simp] theorem changeAlarm_library (f : AlarmHandler → AlarmHandler) (s : State) :
    (changeAlarm f s).library = s.library := rfl
@[simp] theorem changeAlarm_memory (f : AlarmHandler → AlarmHandler) (s : State) :
    (changeAlarm f s).memory = s.memory := rfl
@[simp] theorem changeAlarm_engine (f : AlarmHandler → AlarmHandler) (s : State) :
    (changeAlarm f s).engine = s.engine := rfl
@[simp] theorem changeAlarm_meter (f : AlarmHandler → AlarmHandler) (s : State) :
    (changeAlarm f s).meter = s.meter := rfl
@[simp] theorem changeAlarm_alarm (f : AlarmHandler → AlarmHandler) (s : State) :
    (changeAlarm f s).alarm = settleLatches s.alarm (f s.alarm) := rfl
@[simp] theorem changeAlarm_cue (f : AlarmHandler → AlarmHandler) (s : State) :
    (changeAlarm f s).cue = s.cue := rfl
@[simp] theorem changeAlarm_relay (f : AlarmHandler → AlarmHandler) (s : State) :
    (changeAlarm f s).relay = s.relay := rfl
@[simp] theorem changeAlarm_port (f : AlarmHandler → AlarmHandler) (s : State) :
    (changeAlarm f s).port = s.port := rfl
@[simp] theorem changeAlarm_mail (f : AlarmHandler → AlarmHandler) (s : State) :
    (changeAlarm f s).mail = s.mail := rfl

@[simp] theorem reportLink_pending (n : Fin 8) (st : LinkState) (s : State) :
    (reportLink n st s).pending = s.pending := rfl
@[simp] theorem reportLink_system (n : Fin 8) (st : LinkState) (s : State) :
    (reportLink n st s).system = s.system := rfl
@[simp] theorem reportLink_screens (n : Fin 8) (st : LinkState) (s : State) :
    (reportLink n st s).screens = s.screens := rfl
@[simp] theorem reportLink_links (n : Fin 8) (st : LinkState) (s : State) :
    (reportLink n st s).links = s.links := rfl
@[simp] theorem reportLink_decoder (n : Fin 8) (st : LinkState) (s : State) :
    (reportLink n st s).decoder = s.decoder := rfl
@[simp] theorem reportLink_gain (n : Fin 8) (st : LinkState) (s : State) :
    (reportLink n st s).gain = s.gain := rfl
@[simp] theorem reportLink_bank (n : Fin 8) (st : LinkState) (s : State) :
    (reportLink n st s).bank = s.bank := rfl
@[simp] theorem reportLink_library (n : Fin 8) (st : LinkState) (s : State) :
    (reportLink n st s).library = s.library := rfl
@[simp] theorem reportLink_memory (n : Fin 8) (st : LinkState) (s : State) :
    (reportLink n st s).memory = s.memory := rfl
@[simp] theorem reportLink_engine (n : Fin 8) (st : LinkState) (s : State) :
    (reportLink n st s).engine = s.engine := rfl
@[simp] theorem reportLink_meter (n : Fin 8) (st : LinkState) (s : State) :
    (reportLink n st s).meter = s.meter := rfl
@[simp] theorem reportLink_alarm (n : Fin 8) (st : LinkState) (s : State) :
    (reportLink n st s).alarm = s.alarm := rfl
@[simp] theorem reportLink_cue (n : Fin 8) (st : LinkState) (s : State) :
    (reportLink n st s).cue = s.cue := rfl
@[simp] theorem reportLink_relay (n : Fin 8) (st : LinkState) (s : State) :
    (reportLink n st s).relay = s.relay := rfl
@[simp] theorem reportLink_port (n : Fin 8) (st : LinkState) (s : State) :
    (reportLink n st s).port = s.port := rfl
@[simp] theorem reportLink_mail_links (n : Fin 8) (st : LinkState) (s : State) :
    (reportLink n st s).mail.links = s.mail.links ++ [(n, st)] := rfl
@[simp] theorem reportLink_mail_alarms (n : Fin 8) (st : LinkState) (s : State) :
    (reportLink n st s).mail.alarms = s.mail.alarms := rfl
@[simp] theorem reportLink_mail_causes (n : Fin 8) (st : LinkState) (s : State) :
    (reportLink n st s).mail.causes = s.mail.causes := rfl
@[simp] theorem reportLink_mail_holds (n : Fin 8) (st : LinkState) (s : State) :
    (reportLink n st s).mail.holds = s.mail.holds := rfl
@[simp] theorem reportLink_mail_advances (n : Fin 8) (st : LinkState) (s : State) :
    (reportLink n st s).mail.advances = s.mail.advances := rfl
@[simp] theorem reportLink_mail_outcomes (n : Fin 8) (st : LinkState) (s : State) :
    (reportLink n st s).mail.outcomes = s.mail.outcomes := rfl

@[simp] theorem sendAlarm_pending (r : AlarmReport) (s : State) :
    (sendAlarm r s).pending = s.pending := rfl
@[simp] theorem sendAlarm_system (r : AlarmReport) (s : State) :
    (sendAlarm r s).system = s.system := rfl
@[simp] theorem sendAlarm_screens (r : AlarmReport) (s : State) :
    (sendAlarm r s).screens = s.screens := rfl
@[simp] theorem sendAlarm_links (r : AlarmReport) (s : State) :
    (sendAlarm r s).links = s.links := rfl
@[simp] theorem sendAlarm_decoder (r : AlarmReport) (s : State) :
    (sendAlarm r s).decoder = s.decoder := rfl
@[simp] theorem sendAlarm_gain (r : AlarmReport) (s : State) :
    (sendAlarm r s).gain = s.gain := rfl
@[simp] theorem sendAlarm_bank (r : AlarmReport) (s : State) :
    (sendAlarm r s).bank = s.bank := rfl
@[simp] theorem sendAlarm_library (r : AlarmReport) (s : State) :
    (sendAlarm r s).library = s.library := rfl
@[simp] theorem sendAlarm_memory (r : AlarmReport) (s : State) :
    (sendAlarm r s).memory = s.memory := rfl
@[simp] theorem sendAlarm_engine (r : AlarmReport) (s : State) :
    (sendAlarm r s).engine = s.engine := rfl
@[simp] theorem sendAlarm_meter (r : AlarmReport) (s : State) :
    (sendAlarm r s).meter = s.meter := rfl
@[simp] theorem sendAlarm_alarm (r : AlarmReport) (s : State) :
    (sendAlarm r s).alarm = s.alarm := rfl
@[simp] theorem sendAlarm_cue (r : AlarmReport) (s : State) :
    (sendAlarm r s).cue = s.cue := rfl
@[simp] theorem sendAlarm_relay (r : AlarmReport) (s : State) :
    (sendAlarm r s).relay = s.relay := rfl
@[simp] theorem sendAlarm_port (r : AlarmReport) (s : State) :
    (sendAlarm r s).port = s.port := rfl
@[simp] theorem sendAlarm_mail_links (r : AlarmReport) (s : State) :
    (sendAlarm r s).mail.links = s.mail.links := rfl
@[simp] theorem sendAlarm_mail_alarms (r : AlarmReport) (s : State) :
    (sendAlarm r s).mail.alarms = s.mail.alarms ++ [r] := rfl
@[simp] theorem sendAlarm_mail_causes (r : AlarmReport) (s : State) :
    (sendAlarm r s).mail.causes = s.mail.causes := rfl
@[simp] theorem sendAlarm_mail_holds (r : AlarmReport) (s : State) :
    (sendAlarm r s).mail.holds = s.mail.holds := rfl
@[simp] theorem sendAlarm_mail_advances (r : AlarmReport) (s : State) :
    (sendAlarm r s).mail.advances = s.mail.advances := rfl
@[simp] theorem sendAlarm_mail_outcomes (r : AlarmReport) (s : State) :
    (sendAlarm r s).mail.outcomes = s.mail.outcomes := rfl

@[simp] theorem sendRaise_pending (id : AlarmId) (s : State) :
    (sendRaise id s).pending = s.pending := rfl
@[simp] theorem sendRaise_system (id : AlarmId) (s : State) :
    (sendRaise id s).system = s.system := rfl
@[simp] theorem sendRaise_screens (id : AlarmId) (s : State) :
    (sendRaise id s).screens = s.screens := rfl
@[simp] theorem sendRaise_links (id : AlarmId) (s : State) :
    (sendRaise id s).links = s.links := rfl
@[simp] theorem sendRaise_decoder (id : AlarmId) (s : State) :
    (sendRaise id s).decoder = s.decoder := rfl
@[simp] theorem sendRaise_gain (id : AlarmId) (s : State) :
    (sendRaise id s).gain = s.gain := rfl
@[simp] theorem sendRaise_bank (id : AlarmId) (s : State) :
    (sendRaise id s).bank = s.bank := rfl
@[simp] theorem sendRaise_library (id : AlarmId) (s : State) :
    (sendRaise id s).library = s.library := rfl
@[simp] theorem sendRaise_memory (id : AlarmId) (s : State) :
    (sendRaise id s).memory = s.memory := rfl
@[simp] theorem sendRaise_engine (id : AlarmId) (s : State) :
    (sendRaise id s).engine = s.engine := rfl
@[simp] theorem sendRaise_meter (id : AlarmId) (s : State) :
    (sendRaise id s).meter = s.meter := rfl
@[simp] theorem sendRaise_alarm (id : AlarmId) (s : State) :
    (sendRaise id s).alarm = s.alarm := rfl
@[simp] theorem sendRaise_cue (id : AlarmId) (s : State) :
    (sendRaise id s).cue = s.cue := rfl
@[simp] theorem sendRaise_relay (id : AlarmId) (s : State) :
    (sendRaise id s).relay = s.relay := rfl
@[simp] theorem sendRaise_port (id : AlarmId) (s : State) :
    (sendRaise id s).port = s.port := rfl
@[simp] theorem sendRaise_mail_links (id : AlarmId) (s : State) :
    (sendRaise id s).mail.links = s.mail.links := rfl
@[simp] theorem sendRaise_mail_alarms (id : AlarmId) (s : State) :
    (sendRaise id s).mail.alarms = s.mail.alarms ++ [{ id := id, raise := true, action := .none, atOff := false }] := rfl
@[simp] theorem sendRaise_mail_causes (id : AlarmId) (s : State) :
    (sendRaise id s).mail.causes = s.mail.causes := rfl
@[simp] theorem sendRaise_mail_holds (id : AlarmId) (s : State) :
    (sendRaise id s).mail.holds = s.mail.holds := rfl
@[simp] theorem sendRaise_mail_advances (id : AlarmId) (s : State) :
    (sendRaise id s).mail.advances = s.mail.advances := rfl
@[simp] theorem sendRaise_mail_outcomes (id : AlarmId) (s : State) :
    (sendRaise id s).mail.outcomes = s.mail.outcomes := rfl

@[simp] theorem sendAbsence_pending (id : AlarmId) (s : State) :
    (sendAbsence id s).pending = s.pending := rfl
@[simp] theorem sendAbsence_system (id : AlarmId) (s : State) :
    (sendAbsence id s).system = s.system := rfl
@[simp] theorem sendAbsence_screens (id : AlarmId) (s : State) :
    (sendAbsence id s).screens = s.screens := rfl
@[simp] theorem sendAbsence_links (id : AlarmId) (s : State) :
    (sendAbsence id s).links = s.links := rfl
@[simp] theorem sendAbsence_decoder (id : AlarmId) (s : State) :
    (sendAbsence id s).decoder = s.decoder := rfl
@[simp] theorem sendAbsence_gain (id : AlarmId) (s : State) :
    (sendAbsence id s).gain = s.gain := rfl
@[simp] theorem sendAbsence_bank (id : AlarmId) (s : State) :
    (sendAbsence id s).bank = s.bank := rfl
@[simp] theorem sendAbsence_library (id : AlarmId) (s : State) :
    (sendAbsence id s).library = s.library := rfl
@[simp] theorem sendAbsence_memory (id : AlarmId) (s : State) :
    (sendAbsence id s).memory = s.memory := rfl
@[simp] theorem sendAbsence_engine (id : AlarmId) (s : State) :
    (sendAbsence id s).engine = s.engine := rfl
@[simp] theorem sendAbsence_meter (id : AlarmId) (s : State) :
    (sendAbsence id s).meter = s.meter := rfl
@[simp] theorem sendAbsence_alarm (id : AlarmId) (s : State) :
    (sendAbsence id s).alarm = s.alarm := rfl
@[simp] theorem sendAbsence_cue (id : AlarmId) (s : State) :
    (sendAbsence id s).cue = s.cue := rfl
@[simp] theorem sendAbsence_relay (id : AlarmId) (s : State) :
    (sendAbsence id s).relay = s.relay := rfl
@[simp] theorem sendAbsence_port (id : AlarmId) (s : State) :
    (sendAbsence id s).port = s.port := rfl
@[simp] theorem sendAbsence_mail_links (id : AlarmId) (s : State) :
    (sendAbsence id s).mail.links = s.mail.links := rfl
@[simp] theorem sendAbsence_mail_alarms (id : AlarmId) (s : State) :
    (sendAbsence id s).mail.alarms = s.mail.alarms ++ [{ id := id, raise := false, action := .none, atOff := false }] := rfl
@[simp] theorem sendAbsence_mail_causes (id : AlarmId) (s : State) :
    (sendAbsence id s).mail.causes = s.mail.causes := rfl
@[simp] theorem sendAbsence_mail_holds (id : AlarmId) (s : State) :
    (sendAbsence id s).mail.holds = s.mail.holds := rfl
@[simp] theorem sendAbsence_mail_advances (id : AlarmId) (s : State) :
    (sendAbsence id s).mail.advances = s.mail.advances := rfl
@[simp] theorem sendAbsence_mail_outcomes (id : AlarmId) (s : State) :
    (sendAbsence id s).mail.outcomes = s.mail.outcomes := rfl

@[simp] theorem sendCause_pending (m : CauseMessage) (s : State) :
    (sendCause m s).pending = s.pending := rfl
@[simp] theorem sendCause_system (m : CauseMessage) (s : State) :
    (sendCause m s).system = s.system := rfl
@[simp] theorem sendCause_screens (m : CauseMessage) (s : State) :
    (sendCause m s).screens = s.screens := rfl
@[simp] theorem sendCause_links (m : CauseMessage) (s : State) :
    (sendCause m s).links = s.links := rfl
@[simp] theorem sendCause_decoder (m : CauseMessage) (s : State) :
    (sendCause m s).decoder = s.decoder := rfl
@[simp] theorem sendCause_gain (m : CauseMessage) (s : State) :
    (sendCause m s).gain = s.gain := rfl
@[simp] theorem sendCause_bank (m : CauseMessage) (s : State) :
    (sendCause m s).bank = s.bank := rfl
@[simp] theorem sendCause_library (m : CauseMessage) (s : State) :
    (sendCause m s).library = s.library := rfl
@[simp] theorem sendCause_memory (m : CauseMessage) (s : State) :
    (sendCause m s).memory = s.memory := rfl
@[simp] theorem sendCause_engine (m : CauseMessage) (s : State) :
    (sendCause m s).engine = s.engine := rfl
@[simp] theorem sendCause_meter (m : CauseMessage) (s : State) :
    (sendCause m s).meter = s.meter := rfl
@[simp] theorem sendCause_alarm (m : CauseMessage) (s : State) :
    (sendCause m s).alarm = s.alarm := rfl
@[simp] theorem sendCause_cue (m : CauseMessage) (s : State) :
    (sendCause m s).cue = s.cue := rfl
@[simp] theorem sendCause_relay (m : CauseMessage) (s : State) :
    (sendCause m s).relay = s.relay := rfl
@[simp] theorem sendCause_port (m : CauseMessage) (s : State) :
    (sendCause m s).port = s.port := rfl
@[simp] theorem sendCause_mail_links (m : CauseMessage) (s : State) :
    (sendCause m s).mail.links = s.mail.links := rfl
@[simp] theorem sendCause_mail_alarms (m : CauseMessage) (s : State) :
    (sendCause m s).mail.alarms = s.mail.alarms := rfl
@[simp] theorem sendCause_mail_causes (m : CauseMessage) (s : State) :
    (sendCause m s).mail.causes = s.mail.causes ++ [m] := rfl
@[simp] theorem sendCause_mail_holds (m : CauseMessage) (s : State) :
    (sendCause m s).mail.holds = s.mail.holds := rfl
@[simp] theorem sendCause_mail_advances (m : CauseMessage) (s : State) :
    (sendCause m s).mail.advances = s.mail.advances := rfl
@[simp] theorem sendCause_mail_outcomes (m : CauseMessage) (s : State) :
    (sendCause m s).mail.outcomes = s.mail.outcomes := rfl

@[simp] theorem sendAdvance_pending (a : Advance) (s : State) :
    (sendAdvance a s).pending = s.pending := rfl
@[simp] theorem sendAdvance_system (a : Advance) (s : State) :
    (sendAdvance a s).system = s.system := rfl
@[simp] theorem sendAdvance_screens (a : Advance) (s : State) :
    (sendAdvance a s).screens = s.screens := rfl
@[simp] theorem sendAdvance_links (a : Advance) (s : State) :
    (sendAdvance a s).links = s.links := rfl
@[simp] theorem sendAdvance_decoder (a : Advance) (s : State) :
    (sendAdvance a s).decoder = s.decoder := rfl
@[simp] theorem sendAdvance_gain (a : Advance) (s : State) :
    (sendAdvance a s).gain = s.gain := rfl
@[simp] theorem sendAdvance_bank (a : Advance) (s : State) :
    (sendAdvance a s).bank = s.bank := rfl
@[simp] theorem sendAdvance_library (a : Advance) (s : State) :
    (sendAdvance a s).library = s.library := rfl
@[simp] theorem sendAdvance_memory (a : Advance) (s : State) :
    (sendAdvance a s).memory = s.memory := rfl
@[simp] theorem sendAdvance_engine (a : Advance) (s : State) :
    (sendAdvance a s).engine = s.engine := rfl
@[simp] theorem sendAdvance_meter (a : Advance) (s : State) :
    (sendAdvance a s).meter = s.meter := rfl
@[simp] theorem sendAdvance_alarm (a : Advance) (s : State) :
    (sendAdvance a s).alarm = s.alarm := rfl
@[simp] theorem sendAdvance_cue (a : Advance) (s : State) :
    (sendAdvance a s).cue = s.cue := rfl
@[simp] theorem sendAdvance_relay (a : Advance) (s : State) :
    (sendAdvance a s).relay = s.relay := rfl
@[simp] theorem sendAdvance_port (a : Advance) (s : State) :
    (sendAdvance a s).port = s.port := rfl
@[simp] theorem sendAdvance_mail_links (a : Advance) (s : State) :
    (sendAdvance a s).mail.links = s.mail.links := rfl
@[simp] theorem sendAdvance_mail_alarms (a : Advance) (s : State) :
    (sendAdvance a s).mail.alarms = s.mail.alarms := rfl
@[simp] theorem sendAdvance_mail_causes (a : Advance) (s : State) :
    (sendAdvance a s).mail.causes = s.mail.causes := rfl
@[simp] theorem sendAdvance_mail_holds (a : Advance) (s : State) :
    (sendAdvance a s).mail.holds = s.mail.holds := rfl
@[simp] theorem sendAdvance_mail_advances (a : Advance) (s : State) :
    (sendAdvance a s).mail.advances = s.mail.advances ++ [a] := rfl
@[simp] theorem sendAdvance_mail_outcomes (a : Advance) (s : State) :
    (sendAdvance a s).mail.outcomes = s.mail.outcomes := rfl

@[simp] theorem sendOutcome_pending (o : LoadOutcome) (s : State) :
    (sendOutcome o s).pending = s.pending := rfl
@[simp] theorem sendOutcome_system (o : LoadOutcome) (s : State) :
    (sendOutcome o s).system = s.system := rfl
@[simp] theorem sendOutcome_screens (o : LoadOutcome) (s : State) :
    (sendOutcome o s).screens = s.screens := rfl
@[simp] theorem sendOutcome_links (o : LoadOutcome) (s : State) :
    (sendOutcome o s).links = s.links := rfl
@[simp] theorem sendOutcome_decoder (o : LoadOutcome) (s : State) :
    (sendOutcome o s).decoder = s.decoder := rfl
@[simp] theorem sendOutcome_gain (o : LoadOutcome) (s : State) :
    (sendOutcome o s).gain = s.gain := rfl
@[simp] theorem sendOutcome_bank (o : LoadOutcome) (s : State) :
    (sendOutcome o s).bank = s.bank := rfl
@[simp] theorem sendOutcome_library (o : LoadOutcome) (s : State) :
    (sendOutcome o s).library = s.library := rfl
@[simp] theorem sendOutcome_memory (o : LoadOutcome) (s : State) :
    (sendOutcome o s).memory = s.memory := rfl
@[simp] theorem sendOutcome_engine (o : LoadOutcome) (s : State) :
    (sendOutcome o s).engine = s.engine := rfl
@[simp] theorem sendOutcome_meter (o : LoadOutcome) (s : State) :
    (sendOutcome o s).meter = s.meter := rfl
@[simp] theorem sendOutcome_alarm (o : LoadOutcome) (s : State) :
    (sendOutcome o s).alarm = s.alarm := rfl
@[simp] theorem sendOutcome_cue (o : LoadOutcome) (s : State) :
    (sendOutcome o s).cue = s.cue := rfl
@[simp] theorem sendOutcome_relay (o : LoadOutcome) (s : State) :
    (sendOutcome o s).relay = s.relay := rfl
@[simp] theorem sendOutcome_port (o : LoadOutcome) (s : State) :
    (sendOutcome o s).port = s.port := rfl
@[simp] theorem sendOutcome_mail_links (o : LoadOutcome) (s : State) :
    (sendOutcome o s).mail.links = s.mail.links := rfl
@[simp] theorem sendOutcome_mail_alarms (o : LoadOutcome) (s : State) :
    (sendOutcome o s).mail.alarms = s.mail.alarms := rfl
@[simp] theorem sendOutcome_mail_causes (o : LoadOutcome) (s : State) :
    (sendOutcome o s).mail.causes = s.mail.causes := rfl
@[simp] theorem sendOutcome_mail_holds (o : LoadOutcome) (s : State) :
    (sendOutcome o s).mail.holds = s.mail.holds := rfl
@[simp] theorem sendOutcome_mail_advances (o : LoadOutcome) (s : State) :
    (sendOutcome o s).mail.advances = s.mail.advances := rfl
@[simp] theorem sendOutcome_mail_outcomes (o : LoadOutcome) (s : State) :
    (sendOutcome o s).mail.outcomes = s.mail.outcomes ++ [o] := rfl

end Sys2Proof.Machine
end

