-- ==== Sys2Proof/Laws/Ops.lean ====
section
/-! SUPPORT. What the operations every block uses can do: the hold of the reset line, the service of a port, the taking of
a report, the steps of the relay bus, the fields of a response, and repeated operations. -/

namespace Sys2Proof.Machine

open Sys2Proof

/-! ### The reset line -/

theorem whenRunning_running {s : State} (h : Running s) (t : State) : whenRunning s t = .next t := by
  simp only [Running] at h
  simp [whenRunning, h]

theorem whenRunning_held {s : State} (h : s.system.lineHeld = true) (t : State) : whenRunning s t = .next s := by
  simp [whenRunning, h]

/-- A command behind the reset line answers a next state, the old one or the one given. -/
theorem whenRunning_next (s t : State) : whenRunning s t = .next s ∨ whenRunning s t = .next t := by
  unfold whenRunning
  split
  · exact .inl rfl
  · exact .inr rfl

/-- Every command behind the reset line completes. -/
theorem whenRunning_exists (s t : State) : ∃ u, whenRunning s t = .next u ∧ (u = s ∨ u = t) := by
  rcases whenRunning_next s t with h | h
  · exact ⟨s, h, .inl rfl⟩
  · exact ⟨t, h, .inr rfl⟩

/-! ### The service of a port (R183) -/

/-- Taking the held request changes nothing but the Port Interface. -/
theorem takeHeld_eq (p : Port) (s : State) : takeHeld p s = { s with port := (takeHeld p s).port } := rfl

/-- Placing a response changes nothing but the Port Interface. -/
theorem onPort_eq (p : Port) (f : PortRecord → PortRecord) (s : State) :
    onPort p f s = { s with port := { s.port with ports := update s.port.ports (portIndex p) f } } := rfl

/-- A response placed on the slot of the request just taken is the response placed on the slot as it was. -/
theorem placed_after_taken (p : Port) (rep : Reply) (s : State) :
    (onPort p (placed rep) (takeHeld p s)).port = answeredPorts p rep s.port := by
  simp only [onPort, takeHeld, answeredPorts, update_update]
  rfl

/-- A request whose owner leaves the Port Interface as it finds it ends with its response placed and every other
block as its owner left it. -/
theorem servePort_eq {p : Port} {owner : State → State × Reply} {s t : State} {rep : Reply}
    (h : owner (takeHeld p s) = (t, rep)) (hp : t.port = (takeHeld p s).port) :
    servePort p owner s = { t with port := answeredPorts p rep s.port } := by
  have h1 := placed_after_taken p rep s
  simp only [servePort, h]
  simp only [onPort] at h1 ⊢
  rw [hp, h1]

/-- A refused request changes nothing but its port. -/
theorem servePort_refuse (p : Port) (st : Status) (s : State) :
    servePort p (refuse st) s = { s with port := answeredPorts p (refusal st) s.port } := by
  rw [servePort_eq (t := takeHeld p s) (rep := refusal st) rfl rfl]
  rfl

/-- The owner of a request that names a screen in range is that screen's. -/
theorem withScreen_inRange (n : Fin 8) (s : State) (f : Fin 8 → State × Reply) : withScreen n.val s f = f n := by
  simp [withScreen]

/-- A request that names a screen outside 0..7 is refused with BAD_ARGUMENT. -/
theorem withScreen_outside {n : Nat} (h : 8 ≤ n) (s : State) (f : Fin 8 → State × Reply) :
    withScreen n s f = refuse .badArgument s := by
  simp [withScreen, Nat.not_lt.mpr h]

theorem portIndex_inj {p q : Port} (h : portIndex p = portIndex q) : p = q := by
  cases p <;> cases q <;> simp_all [portIndex]

/-! ### Reports on their way -/

/-- A report taken is the first that is asked for. -/
theorem takeFirst_some {α : Type} {p : α → Bool} {xs : List α} {a : α} {rest : List α}
    (h : takeFirst p xs = some (a, rest)) :
    ∃ before after, xs = before ++ a :: after ∧ rest = before ++ after ∧ p a = true ∧ ∀ x ∈ before, p x = false := by
  induction xs generalizing rest with
  | nil => simp [takeFirst] at h
  | cons x xs ih =>
    simp only [takeFirst] at h
    split at h
    · next hx =>
      simp only [Option.some.injEq, Prod.mk.injEq] at h
      obtain ⟨rfl, rfl⟩ := h
      exact ⟨[], xs, rfl, rfl, hx, by simp⟩
    · next hx =>
      simp only [Option.map_eq_some_iff, Prod.mk.injEq] at h
      obtain ⟨⟨b, r⟩, hb, rfl, rfl⟩ := h
      obtain ⟨before, after, h1, h2, h3, h4⟩ := ih hb
      refine ⟨x :: before, after, by simp_all, by simp_all, h3, ?_⟩
      intro y hy
      rcases List.mem_cons.mp hy with rfl | hy
      · simpa using hx
      · exact h4 y hy

/-- The first report asked for is the one that is taken. -/
theorem takeFirst_append {α : Type} {p : α → Bool} {before after : List α} {a : α} (ha : p a = true)
    (h : ∀ x ∈ before, p x = false) : takeFirst p (before ++ a :: after) = some (a, before ++ after) := by
  induction before with
  | nil => simp [takeFirst, ha]
  | cons x xs ih =>
    have hx := h x (by simp)
    simp [takeFirst, hx, ih fun y hy => h y (by simp [hy])]

/-- Nothing is taken exactly when no report is asked for. -/
theorem takeFirst_none {α : Type} {p : α → Bool} {xs : List α} : takeFirst p xs = none ↔ ∀ x ∈ xs, p x = false := by
  induction xs with
  | nil => simp [takeFirst]
  | cons x xs ih =>
    simp only [takeFirst]
    cases hx : p x <;> simp [hx, ih]

/-- The oldest report of an identity is taken when it is of the sort asked for and nothing before it comes first. -/
theorem takeReport_append {r : AlarmReport} {before after : List AlarmReport}
    (h : ∀ x ∈ before, x.id ≠ r.id ∧ mustPrecede x r = false) :
    takeReport r.id r.raise (before ++ r :: after) = some (r, before ++ after) := by
  have h1 : takeFirst (fun x : AlarmReport => decide (x.id = r.id)) (before ++ r :: after) =
      some (r, before ++ after) := takeFirst_append (by simp) fun x hx => by simpa using (h x hx).1
  have h2 : ∀ bs : List AlarmReport, (∀ x ∈ bs, x.id ≠ r.id ∧ mustPrecede x r = false) →
      ((bs ++ r :: after).takeWhile fun e => decide (e.id ≠ r.id)) = bs := by
    intro bs hbs
    induction bs with
    | nil => simp
    | cons b bs ih =>
      have hb := hbs b (by simp)
      simp only [List.cons_append, List.takeWhile_cons, decide_eq_true hb.1, if_true]
      rw [ih fun x hx => hbs x (by simp [hx])]
  simp only [takeReport, h1]
  rw [h2 before h, if_pos]
  simp only [decide_true, Bool.true_and, List.all_eq_true, Bool.not_eq_true']
  exact fun x hx => (h x hx).2

/-! ### Cue events and advances on their way (R156, R162) -/

/-- The test that keeps an advance back says what the statements say. -/
theorem eventsComing_iff (n : Fin 8) (s : State) : eventsComing n s = true ↔ EventsComing n s := by
  simp only [eventsComing, EventsComing, Bool.or_eq_true, List.any_eq_true, Bool.and_eq_true, isCueEvent,
    isCueHoldOf, decide_eq_true_eq]
  refine or_congr (exists_congr fun r => and_congr_right fun _ => ?_) Iff.rfl
  rcases r with ⟨⟨k, sc, i⟩, raise, action, atOff⟩
  cases k <;> simp [isCueKind]

/-- With no cue event of the screen on its way there is nothing to bring. -/
theorem bringEvents_none {n : Fin 8} {s : State} (h : ¬EventsComing n s) : bringEvents n s = s := by
  rw [← eventsComing_iff, eventsComing, Bool.or_eq_true, not_or] at h
  have h1 : s.mail.alarms.filter (isCueEvent n) = [] := by
    simpa [List.filter_eq_nil_iff] using h.1
  have h2 : (s.mail.alarms.filter fun r => !isCueEvent n r) = s.mail.alarms := by
    simpa [List.filter_eq_self] using h.1
  have h3 : (s.mail.holds.filter fun r => !isCueHoldOf n r) = s.mail.holds := by
    simpa [List.filter_eq_self] using h.2
  simp only [bringEvents, bringHolds, h1, h2, forEach, List.foldl_nil, h3, h.2]
  rfl

/-- With no advance of the screen on its way there is none to take. -/
theorem takeSentAdvances_none {n : Fin 8} {s : State} (h : ∀ a ∈ s.mail.advances, a.screen ≠ n) :
    takeSentAdvances n s = s := by
  have h1 : (s.mail.advances.filter fun a => decide (a.screen = n)) = [] := by
    simpa [List.filter_eq_nil_iff] using h
  have h2 : (s.mail.advances.filter fun a => decide (a.screen ≠ n)) = s.mail.advances := by
    simpa [List.filter_eq_self] using h
  simp only [takeSentAdvances, h1, h2, forEach, List.foldl_nil]

/-! ### Steps of the relay bus (R171, R174, R177) -/

/-- A bus step is at hand exactly in its bus state, with the lines free and a transaction in flight. -/
theorem flightIn_eq_some {b : BusState} {f : Flight} {s : State} :
    flightIn b s = some f ↔ s.relay.bus = b ∧ LinesFree s.relay ∧ s.relay.flight = some f := by
  simp [flightIn, busReady, LinesFree, and_assoc]

/-- While the lines are not free no bus step is at hand. -/
theorem flightIn_none {b : BusState} {s : State} (h : ¬LinesFree s.relay) : flightIn b s = none := by
  cases hf : flightIn b s with
  | none => rfl
  | some f => exact absurd (flightIn_eq_some.mp hf).2.1 h

/-! ### The fields of responses (R192) -/

@[simp] theorem fieldBytes_one (v : Nat) : fieldBytes (1, v) = byteOf v := by
  simp [fieldBytes, byteOf, List.range, List.range.loop]

@[simp] theorem fieldBytes_two (v : Nat) : fieldBytes (2, v) = halfOf v := by
  simp [fieldBytes, halfOf, byteOf, List.range, List.range.loop]

@[simp] theorem fieldBytes_four (v : Nat) : fieldBytes (4, v) = wordOf v := by
  simp [fieldBytes, wordOf, halfOf, byteOf, List.range, List.range.loop, Nat.div_div_eq_div_mul]

@[simp] theorem fieldBytes_eight (v : Nat) : fieldBytes (8, v) = longOf v := by
  simp [fieldBytes, longOf, wordOf, halfOf, byteOf, List.range, List.range.loop, Nat.div_div_eq_div_mul]

theorem byteOf_signedValue (v : Int) : byteOf (signedValue v) = signedByteOf v := by
  simp only [byteOf, signedByteOf, signedValue, List.cons.injEq, and_true]
  apply BitVec.eq_of_toNat_eq
  simp
  omega

theorem byteOf_flagValue (b : Bool) : byteOf (flagValue b) = flagByte b := by cases b <;> rfl

@[simp] theorem laidOut_nil : laidOut [] = [] := rfl

@[simp] theorem laidOut_cons (x : Field) (xs : List Field) : laidOut (x :: xs) = fieldBytes x ++ laidOut xs := rfl

@[simp] theorem laidOut_append (xs ys : List Field) : laidOut (xs ++ ys) = laidOut xs ++ laidOut ys := by
  simp [laidOut]

@[simp] theorem laidOut_flatMap {α : Type} (xs : List α) (f : α → List Field) :
    laidOut (xs.flatMap f) = xs.flatMap fun x => laidOut (f x) := by
  simp [laidOut, List.flatMap_assoc]

@[simp] theorem laidOut_map {α : Type} (xs : List α) (f : α → Field) :
    laidOut (xs.map f) = xs.flatMap fun x => fieldBytes (f x) := by
  simp [laidOut, List.flatMap_map]

@[simp] theorem laidOut_maybe {α : Type} (len : Nat) (f : α → List Field) (x : Option α) :
    laidOut (maybe len f x) = optionalOf (fun a => laidOut (f a)) len x := by
  have h : fieldBytes (len, 0) = List.replicate len 0 := by simp [fieldBytes, List.map_const']
  cases x with
  | none => simp [maybe, optionalOf, flagByte, h]
  | some a => simp [maybe, optionalOf, flagByte]

/-! ### Repeated operations -/

@[simp] theorem forEach_nil {α : Type} (f : α → State → State) (s : State) : forEach [] f s = s := rfl

@[simp] theorem forEach_cons {α : Type} (x : α) (xs : List α) (f : α → State → State) (s : State) :
    forEach (x :: xs) f s = forEach xs f (f x s) := rfl

/-- What every round keeps, all of them keep. -/
theorem forEach_keeps {α : Type} {P : State → Prop} {f : α → State → State} (hf : ∀ x s, P s → P (f x s))
    (xs : List α) (s : State) (h : P s) : P (forEach xs f s) := by
  induction xs generalizing s with
  | nil => exact h
  | cons x xs ih => exact ih _ (hf x s h)

/-- A part of the state no round touches is as before. -/
theorem forEach_same {α β : Type} {g : State → β} {f : α → State → State} (hf : ∀ x s, g (f x s) = g s)
    (xs : List α) (s : State) : g (forEach xs f s) = g s := by
  induction xs generalizing s with
  | nil => rfl
  | cons x xs ih => rw [forEach_cons, ih, hf]

end Sys2Proof.Machine
end

