-- ==== Sys2Proof/Laws/Library.lean ====
section
/-! SUPPORT. What the Library Engine's shared operations can do: the load of a removed draft dropped, and the entries
that count against a new one. -/

namespace Sys2Proof.Machine

open Sys2Proof

/-- An entry that does not serve the screen's draft. -/
theorem servesDraft_false {n : Fin 8} {x : LibraryEntry} :
    servesDraft n x = false ↔ ¬(x.task = .load ∧ x.screen = n ∧ x.discarded = false) := by
  simp only [servesDraft]
  by_cases h1 : x.task = .load <;> by_cases h2 : x.screen = n <;> cases x.discarded <;> simp [h1, h2]

/-- A change of one slot's record is that record's, and keeps the others. -/
theorem onSlot_slots (k : Fin 48) (f : Slot → Slot) (s : State) :
    (onSlot k f s).library.slots[k] = f s.library.slots[k]
    ∧ OthersKept k s.library.slots (onSlot k f s).library.slots := by
  constructor
  · simp [onSlot, update]
  · intro j hj
    simp only [onSlot, update]
    have : (k:Nat) ≠ j := fun h => hj (Fin.ext h.symm)
    simp [Vector.getElem_set_ne _ _ this]

/-- Dropping the load of a screen's draft does what R93 says, wherever the load stands in the queue. -/
theorem dropLoad_dropped {n : Fin 8} {s : State} {before : List LibraryEntry} {e : LibraryEntry}
    {after : List LibraryEntry} (h : IsDraftsLoad n s before e after) :
    LoadDropped before e after s (dropLoad n s) := by
  obtain ⟨hq, ht, hs, hd, hb⟩ := h
  have he : servesDraft n e = true := by simp [servesDraft, ht, hs, hd]
  have hb' : ∀ x ∈ before, servesDraft n x = false := fun x hx => servesDraft_false.2 (hb x hx)
  refine ⟨?_, ?_, ?_⟩
  · intro hc
    cases hp : s.library.progress with
    | none =>
      have : dropLoad n s = lowerPending e.slot { s with library := { s.library with queue := before ++ after } } := by
        unfold dropLoad
        rw [hp, hq]; simp [withoutLoad, takeFirst_append he hb']
      rw [this]
      refine ⟨rfl, (onSlot_slots _ _ _).1, (onSlot_slots _ _ _).2⟩
    | some k =>
      cases before with
      | nil => simp [hp] at hc
      | cons b bs =>
        have : dropLoad n s =
            lowerPending e.slot { s with library := { s.library with queue := b :: (bs ++ after) } } := by
          unfold dropLoad
          rw [hp, hq]
          simp only [List.cons_append]
          rw [if_neg (by simp [hb' b (by simp)])]
          rw [withoutLoad, takeFirst_append he (fun x hx => hb' x (by simp [hx]))]
        rw [this]
        refine ⟨rfl, (onSlot_slots _ _ _).1, (onSlot_slots _ _ _).2⟩
  · intro hbn hp hl
    subst hbn
    obtain ⟨k, hk⟩ := Option.ne_none_iff_exists'.1 hp
    have hl' : burstOnBus s = false := by
      simp only [BurstLive, not_exists] at hl
      unfold burstOnBus; split <;> simp_all
    have : dropLoad n s =
        lowerPending e.slot (retireHead { s with memory := { s.memory with libraryRequest := none } }) := by
      unfold dropLoad
      rw [hk, hq]; simp [he, hl']
    rw [this]
    refine ⟨?_, (onSlot_slots _ _ _).1, (onSlot_slots _ _ _).2⟩
    simp [lowerPending, onSlot, retireHead, hq]
  · intro hbn hp hl
    subst hbn
    obtain ⟨k, hk⟩ := Option.ne_none_iff_exists'.1 hp
    have hl' : burstOnBus s = true := by
      obtain ⟨b, w, hl⟩ := hl
      unfold burstOnBus; rw [hl]
    unfold dropLoad
    rw [hk, hq]; simp [he, hl']

/-- A queue without a load of the screen's draft loses none by the filter. -/
theorem filter_servesDraft {n : Fin 8} {q : List LibraryEntry} (h : q.countP (servesDraft n) = 0) :
    (q.filter fun e => !servesDraft n e) = q := by
  rw [List.filter_eq_self]; intro a ha
  have := List.countP_eq_zero.1 h a ha
  simp [this]

/-- The entries that count against a new load are those R80 and R96 count. -/
theorem queueCount_counted {n : Fin 8} {s : State} {q : Nat} (h : EntriesCounted n s q) : queueCount n s = q := by
  rcases h with ⟨h0, rfl⟩ | ⟨h1, before, e, after, ⟨hq, ht, hs, hd, hb⟩, rfl⟩
  · have hf := filter_servesDraft h0
    unfold queueCount
    split
    · rename_i a b hp hq
      rw [hq] at h0 hf
      rw [List.countP_cons] at h0
      have := filter_servesDraft (n := n) (q := b) (by omega)
      rw [this, hq]; simp; omega
    · rw [hf]
  · have he : servesDraft n e = true := by simp [servesDraft, ht, hs, hd]
    rw [hq, List.countP_append, List.countP_cons, he] at h1
    simp at h1
    have hb0 : before.countP (servesDraft n) = 0 := by omega
    have ha0 : after.countP (servesDraft n) = 0 := by omega
    unfold queueCount
    rw [hq]
    cases before with
    | nil =>
      cases hp : s.library.progress with
      | none => simp [filter_servesDraft ha0, he]
      | some k => simp [filter_servesDraft ha0]; omega
    | cons b bs =>
      have hbs : bs.countP (servesDraft n) = 0 := by rw [List.countP_cons] at hb0; omega
      have hb1 : servesDraft n b = false := servesDraft_false.2 (hb b (by simp))
      cases hp : s.library.progress with
      | none => simp [List.filter_append, filter_servesDraft ha0, filter_servesDraft hbs, he, hb1]; omega
      | some k => simp [List.filter_append, filter_servesDraft ha0, filter_servesDraft hbs, he]; omega

end Sys2Proof.Machine
end

