-- ==== Sys2Proof/Laws/Memory.lean ====
section
/-! SUPPORT. The SDRAM: read after write, the canonical form, and the words of rings and bursts (R97, R98). -/

namespace Sys2Proof.Machine

open Sys2Proof

/-! ### One word -/

/-- A word reads as it was last written. -/
theorem readWord_writeWord_same (m : Memory) (a : Nat) (w : Word) : readWord (writeWord m a w) a = some w := by
  induction m with
  | nil => simp [writeWord, readWord]
  | cons c rest ih =>
    obtain ⟨b, v⟩ := c
    by_cases h1 : a < b
    · simp [writeWord, readWord, h1]
    · by_cases h2 : a = b
      · simp [writeWord, readWord, h2]
      · simp [writeWord, readWord, h1, h2, ih]

/-- A write leaves every other word alone, in any memory. -/
theorem readWord_writeWord_ne {m : Memory} {a b : Nat} (w : Word) (hab : b ≠ a) :
    readWord (writeWord m a w) b = readWord m b := by
  induction m with
  | nil => simp [writeWord, readWord, hab]
  | cons c rest ih =>
    obtain ⟨x, v⟩ := c
    by_cases h1 : a < x
    · simp only [writeWord, if_pos h1, readWord, if_neg hab]
      by_cases h2 : b < a
      · simp [h2, show b ≠ x by omega, show b < x by omega]
      · simp [h2]
    · by_cases h2 : a = x
      · subst h2
        simp only [writeWord, if_neg h1, if_true, readWord, if_neg hab]
      · simp only [writeWord, if_neg h1, if_neg h2, readWord, ih]

theorem risingFrom_mono {m : Memory} {l k : Nat} (h : risingFrom k m = true) (hl : l ≤ k) : risingFrom l m = true := by
  cases m with
  | nil => rfl
  | cons c rest =>
    obtain ⟨b, v⟩ := c
    simp only [risingFrom, Bool.and_eq_true, decide_eq_true_eq] at h ⊢
    exact ⟨by omega, h.2⟩

theorem risingFrom_writeWord {m : Memory} {l a : Nat} (w : Word) (h : risingFrom l m = true) (ha : l ≤ a) :
    risingFrom l (writeWord m a w) = true := by
  induction m generalizing l with
  | nil => simp [writeWord, risingFrom, ha]
  | cons c rest ih =>
    obtain ⟨b, v⟩ := c
    simp only [risingFrom, Bool.and_eq_true, decide_eq_true_eq] at h
    by_cases h1 : a < b
    · simp only [writeWord, if_pos h1, risingFrom, Bool.and_eq_true, decide_eq_true_eq]
      exact ⟨ha, by omega, h.2⟩
    · by_cases h2 : a = b
      · subst h2
        simp only [writeWord, if_neg h1, if_true, risingFrom, Bool.and_eq_true, decide_eq_true_eq]
        exact ⟨ha, h.2⟩
      · simp only [writeWord, if_neg h1, if_neg h2, risingFrom, Bool.and_eq_true, decide_eq_true_eq]
        exact ⟨h.1, ih h.2 (by omega)⟩

/-- A write keeps the canonical form. -/
theorem writeWord_wf {m : Memory} (a : Nat) (w : Word) (h : m.wf = true) : (writeWord m a w).wf = true :=
  risingFrom_writeWord w h (Nat.zero_le a)

/-! ### Runs of words -/

theorem writeWords_wf {m : Memory} (a : Nat) (ws : List Word) (h : m.wf = true) : (writeWords m a ws).wf = true := by
  induction ws generalizing m a with
  | nil => exact h
  | cons w ws ih => exact ih (a + 1) (writeWord_wf a w h)

/-- A run of words leaves every word outside it alone. -/
theorem readWord_writeWords_outside {m : Memory} {a b : Nat} {ws : List Word}
    (h : b < a ∨ a + ws.length ≤ b) : readWord (writeWords m a ws) b = readWord m b := by
  induction ws generalizing m a with
  | nil => rfl
  | cons w ws ih =>
    simp only [List.length_cons] at h
    rw [writeWords, ih (by omega), readWord_writeWord_ne w (by omega)]

/-- Each word of a run is where it was written. -/
theorem readWord_writeWords_inside {m : Memory} {a i : Nat} {ws : List Word} (h : i < ws.length) :
    readWord (writeWords m a ws) (a + i) = some ws[i] := by
  induction ws generalizing m a i with
  | nil => simp at h
  | cons w ws ih =>
    cases i with
    | zero => rw [writeWords, readWord_writeWords_outside (by omega), Nat.add_zero, readWord_writeWord_same]; rfl
    | succ i =>
      have := ih (m := writeWord m a w) (a := a + 1) (i := i) (by simpa using h)
      rw [writeWords, show a + (i + 1) = a + 1 + i by omega, this]; rfl

/-! ### Rings -/

theorem writeRing_wf {m : Memory} (k : Fin 128) (start : Nat) (vs : Samples) (h : m.wf = true) :
    (writeRing m k start vs).wf = true := by
  induction vs generalizing m start with
  | nil => exact h
  | cons v vs ih => exact ih (start + 1) (writeWord_wf _ _ h)

/-- A ring write leaves every word but those of its positions alone. -/
theorem readWord_writeRing_outside {m : Memory} {k : Fin 128} {start a : Nat} {vs : Samples}
    (h : ∀ i, i < vs.length → a ≠ ringWord k (start + i)) :
    readWord (writeRing m k start vs) a = readWord m a := by
  induction vs generalizing m start with
  | nil => rfl
  | cons v vs ih =>
    rw [writeRing, ih, readWord_writeWord_ne]
    · exact h 0 (by simp)
    · intro i hi
      have := h (i + 1) (by simpa using hi)
      rwa [show start + (i + 1) = start + 1 + i by omega] at this

/-- No more samples than a ring holds: each is in its word afterwards. -/
theorem readWord_writeRing_inside {m : Memory} {k : Fin 128} {start i : Nat} {vs : Samples}
    (hl : vs.length ≤ 12288) (h : i < vs.length) :
    readWord (writeRing m k start vs) (ringWord k (start + i)) = some (sampleToWord vs[i]) := by
  induction vs generalizing m start i with
  | nil => simp at h
  | cons v vs ih =>
    simp only [List.length_cons] at hl h
    cases i with
    | zero =>
      rw [writeRing, readWord_writeRing_outside, Nat.add_zero, readWord_writeWord_same]; rfl
      intro i hi
      simp only [ringWord, Config.ringBase, Config.ringLength]
      omega
    | succ i =>
      have := ih (m := writeWord m (ringWord k start) (sampleToWord v)) (start := start + 1) (i := i)
        (by omega) (by omega)
      rw [writeRing, show start + (i + 1) = start + 1 + i by omega, this]; rfl

theorem reset_sdram_wf : Memory.wf State.reset.memory.sdram = true := rfl

end Sys2Proof.Machine
end

