-- ==== Sys2Proof/Tests/Slice0.lean ====
section
/-! SUPPORT. The model's own tests: ill-formed commands refused, figures and worked examples of the manual, and for
each statement a state and operands that meet its hypotheses. -/

namespace Sys2Proof.Tests

open Sys2Proof Sys2Proof.Machine

/-! ### Ill-formed commands are refused, one for each check -/

theorem test_wf_packet_length : Instr.wf (.packetArrival 0 [0, 0, 0]) = false := by decide
theorem test_wf_packet_one_channel : Instr.wf (.packetArrival 0 (List.replicate 147 0)) = true := by decide +kernel
theorem test_wf_cause_kind : Instr.wf (.causeAddition { kind := .clip, scope := .screen 0, index := 0 }) = false := by
  decide
theorem test_wf_removal_scope : Instr.wf (.causeRemoval { kind := .linkLost, scope := .device, index := 0 }) = false := by
  decide
theorem test_wf_raise_index : Instr.wf (.alarmRaise { kind := .relayFault, scope := .device, index := 8 }) = false := by
  decide
theorem test_wf_raise_last_index : Instr.wf (.alarmRaise { kind := .relayFault, scope := .device, index := 7 }) = true := by
  decide
theorem test_wf_absence_event : Instr.wf (.alarmAbsence { kind := .clip, scope := .screen 0, index := 0 }) = false := by
  decide
theorem test_wf_read_is_no_request : Instr.wf (.requestFrame .A [2]) = false := by decide
theorem test_wf_screen_byte : Instr.wf (.screenOn .A 256) = false := by decide
theorem test_wf_profile_tag : Instr.wf (.setProfile .A 0 4294967296 0 0 1 0 0) = false := by decide
theorem test_wf_profile_mode : Instr.wf (.setProfile .A 0 0 256 0 1 0 0) = false := by decide
theorem test_wf_source_byte : Instr.wf (.setSource .A 0 0 0 256) = false := by decide
theorem test_wf_level_half : Instr.wf (.setLevel .A 0 65536 0) = false := by decide
theorem test_wf_law_length : Instr.wf (.setFaderLaw .A (List.replicate 100 0)) = false := by decide
theorem test_wf_law_entry : Instr.wf (.setFaderLaw .A (4294967296 :: List.replicate 100 0)) = false := by decide
theorem test_wf_origin_byte : Instr.wf (.openDraft .A 0 256 0) = false := by decide
theorem test_wf_section_code : Instr.wf (.setSection .A 0 0 0 1 2147483648 0 0 0 0) = false := by decide
theorem test_wf_section_byte : Instr.wf (.setSection .A 0 0 256 1 0 0 0 0 0) = false := by decide
theorem test_wf_channel_word : Instr.wf (.setChannel .A 0 0 4294967296 0 0) = false := by decide
theorem test_wf_save_tag : Instr.wf (.saveLibrary .A 0 0 4294967296) = false := by decide
theorem test_wf_watch_hold : Instr.wf (.setWatch .A 0 0 1 0 65536 0) = false := by decide
theorem test_wf_severity_byte : Instr.wf (.setSeverity .A 256 1 0) = false := by decide
theorem test_wf_route_byte : Instr.wf (.setRoute .A 1 256) = false := by decide
theorem test_wf_line_mask : Instr.wf (.setLine .A 0 1 1 65536 0) = false := by decide
theorem test_wf_active_start : Instr.wf (.readActive .A 65536) = false := by decide
theorem test_wf_ack_byte : Instr.wf (.ackAlarm .A 1 256 0) = false := by decide
theorem test_wf_log_start : Instr.wf (.readLog .A 4294967296) = false := by decide
theorem test_wf_cue_id : Instr.wf (.addCue .A 0 65536 0 0 0 .mark) = false := by decide
theorem test_wf_cue_action : Instr.wf (.addCue .A 0 1 0 0 0 (.other 9)) = false := by decide
theorem test_wf_cue_drive : Instr.wf (.addCue .A 0 1 0 0 0 (.line 0 (.other 2))) = false := by decide
theorem test_wf_remove_id : Instr.wf (.removeCue .A 0 65536) = false := by decide
theorem test_wf_list_start : Instr.wf (.listCues .A 0 65536) = false := by decide
theorem test_wf_enable_byte : Instr.wf (.cueEnable .A 0 256) = false := by decide
theorem test_wf_drive_pulse : Instr.wf (.driveLine .A 0 (.pulse 65536)) = false := by decide
theorem test_wf_expander_byte : Instr.wf (.setExpander .A 0 1 256 8 0) = false := by decide
theorem test_wf_relay_mask : Instr.wf (.relayWrite .A 0 65536 0) = false := by decide

/-! ### Figures of the manual -/

/-- Every row of the table has no bits, so no word spells a command. -/
theorem test_no_word_is_a_command : decodeTableWord 8 0 = none := by decide

/-- R23: the polynomial, start value and bit order of R23 are those of the CRC whose published check value over the
characters "123456789" is 29B1h. -/
theorem test_check_value : (crc16 [0x31, 0x32, 0x33, 0x34, 0x35, 0x36, 0x37, 0x38, 0x39]).toNat = 0x29B1 := by
  decide +kernel

/-- R88: the check value of an image of an empty bank is 400400h. -/
theorem test_empty_bank_check : (imageOf 0 emptyBank).getD 2 0 = 0x00400400#32 := by decide +kernel

/-- R69: entries 0, 7, 70 and 100 of the reset law. -/
theorem test_reset_law : resetLaw[0] = 0 ∧ resetLaw[7] = 26214 ∧ resetLaw[70] = 262144 ∧ resetLaw[100] = 374491 := by
  decide

/-- 03_surround_decoding.md section 3.6: the first period of the first run. -/
theorem test_steering_first_period :
    steer resetSteering (List.replicate 48 1000000) (List.replicate 48 1000000)
      = { el := 91552734, er := 91552734, es := 366210937, ed := 0, lr := 0, fb := 4 } := by decide +kernel

/-- 03_surround_decoding.md section 3.6: the second period of the first run. -/
theorem test_steering_second_period :
    (steer { el := 91552734, er := 91552734, es := 366210937, ed := 0, lr := 0, fb := 4 }
      (List.replicate 48 1000000) (List.replicate 48 1000000))
      = { el := 171661377, er := 171661377, es := 686645507, ed := 0, lr := 0, fb := 8 } := by decide +kernel

/-- 03_surround_decoding.md section 3.6: the gains of the first period, at depth 8, and what they give. -/
theorem test_steering_outputs :
    let k := steeringGains { el := 0, er := 0, es := 0, ed := 0, lr := 0, fb := 4 } 8
    k = { kc := 8, ks := 0, kl := 0, kf := 4 }
    ∧ decL k 1000000 1000000 = 937500 ∧ decC k 1000000 1000000 = 1000000 ∧ decS k 1000000 1000000 = 0 := by decide

/-- 03_surround_decoding.md section 3.6: program on one side. -/
theorem test_steering_one_side :
    let st := steer resetSteering (List.replicate 48 1000000) (List.replicate 48 0)
    st.lr = 4 ∧ st.fb = 0 ∧ decC (steeringGains st 8) 1000000 0 = 484375
      ∧ decS (steeringGains st 8) 1000000 0 = 500000 := by decide +kernel

/-- 04_the_equalisation_chain.md section 4.7: the step response of a section. -/
theorem test_section_response :
    (runSection { inUse := true, b0 := 8388608, b1 := 0, b2 := 0, a1 := -8388608, a2 := 0 } restHistory
      (List.replicate 8 1000000)).1 = [500000, 750000, 875000, 937500, 968750, 984375, 992188, 996094] := by
  decide +kernel

/-- 04_the_equalisation_chain.md section 4.7: gain application, with its halves taken upward. -/
theorem test_gain_application :
    applyGain (combinedGain 262144 262144 8) 875000 = 875000 ∧ applyGain (combinedGain 262144 262144 4) 875000 = 437500
    ∧ applyGain (combinedGain 262144 262144 4) (-875000) = -437500
    ∧ applyGain (combinedGain 1048576 374491 8) 3000000 = 17142838
    ∧ outputSample .none false (combinedGain 1048576 374491 8) 0 3000000 = (8388607, true) := by decide

/-- 04_the_equalisation_chain.md section 4.7: a ramp whose step does not divide evenly. -/
theorem test_ramp_truncates :
    rampGain { start := 374491, target := 274491, length := 3, done := 0 } 1 = 341158
    ∧ rampGain { start := 374491, target := 274491, length := 3, done := 0 } 2 = 307825 := by decide

/-- 04_the_equalisation_chain.md section 4.7: the fades of a delay slew. -/
theorem test_fades :
    fadeSample .fadeOut 0 800000 = 783333 ∧ fadeSample .fadeOut 23 800000 = 400000 ∧ fadeSample .fadeOut 47 800000 = 0
    ∧ fadeSample .fadeIn 0 800000 = 16666 ∧ fadeSample .fadeIn 46 800000 = 783333
    ∧ fadeSample .fadeOut 0 (-800000) = -783333 := by decide

/-- R67: the negation of the least internal value saturates and sets the mark. -/
theorem test_polarity_saturates :
    toInternal (polarity true (-134217728)) = 134217727 ∧ clipsInternal (polarity true (-134217728)) = true := by decide

/-! ### States the witnesses use -/

/-- The part after reset with the SDRAM initialised. -/
def ready : State :=
  { State.reset with
    memory := { resetMemory [] with state := .ready, step := .done, timerRunning := true, bus := .none } }

/-- `ready` with screen 0's context as given. -/
def withContext (c : ScreenContext) : State := { ready with screens := update ready.screens 0 fun _ => c }

/-- A context in service with its two blocks queued. -/
def inState (st : ScreenState) (link : LinkState) : ScreenContext :=
  { resetContext with state := st, notedLink := link, queue := [silentBlock, silentBlock] }

/-- Screen 0 PLAYING. -/
def playing : State := withContext (inState .playing .locked)

/-- A period of screen 0 with every channel at the stage given. -/
def serviceOf (st : ChannelStage) : Service :=
  { screen := 0, state := .playing, mark := .substitute, inputs := silentBlock, sources := silentBlock
    gain := 262144, factor := 8
    channels := Vector.replicate 16
      { readDelay := 0, fade := .none, stage := st, post := silence, output := silence } }

/-- Screen 0 PLAYING with a demand outstanding and its period in service. -/
def serving (st : ChannelStage) : State :=
  { withContext { inState .playing .locked with queue := [silentBlock], outstanding := 1 } with
    engine := { resetEngine with service := some (serviceOf st) } }

/-- `ready` with screen 0's draft as given. -/
def withDraft (d : Draft) : State := { ready with bank := { resetBank with drafts := update resetBank.drafts 0 fun _ => some d } }

/-- A draft of port A over an empty bank. -/
def draftIn (st : DraftState) : Draft :=
  { holder := .port .A 0, state := st, origin := .empty, content := if st = .loading then none else some emptyBank }

/-- An empty bank but for one section in use whose |a2| is 2^24. -/
def unstableBank : Bank :=
  update emptyBank 3 fun r => { r with sections := update r.sections 5 fun f => { f with inUse := true, a2 := 16777216 } }

/-- `ready` with a library queue and a bus operation. -/
def libraryState (q : List LibraryEntry) (progress : Option Nat) (bus : BusOperation) : State :=
  { ready with
    library := { resetLibrary with queue := q, progress := progress }
    memory := { ready.memory with bus := bus } }

def loadEntry : LibraryEntry := { task := .load, slot := 47, screen := 0, discarded := false }

def saveEntry : LibraryEntry := { task := .save 5, slot := 0, screen := 0, discarded := false }

/-- `libraryState` with a LOADING draft of port A on screen 0. -/
def loadingDraft (q : List LibraryEntry) (progress : Option Nat) (bus : BusOperation) : State :=
  { libraryState q progress bus with bank := (withDraft (draftIn .loading)).bank }

/-- `loadEntry` is the load of screen 0's draft wherever it is the first such entry. -/
theorem loadEntry_loads (s : State) (before after : List LibraryEntry) (h : s.library.queue = before ++ loadEntry :: after)
    (hb : ∀ x ∈ before, x.task ≠ .load) : IsDraftsLoad 0 s before loadEntry after :=
  ⟨h, rfl, rfl, rfl, fun x hx hc => hb x hx hc.1⟩

def firstFields : Vector Byte 6 := #v[0, 0, 0, 0, 0, 1]

/-- `ready` with screen 0's receiver record as given. -/
def withLink (l : LinkRecord) : State := { ready with links := update ready.links 0 fun _ => l }

/-- The remaining bytes of a silent packet of tag 0, position 0 and one channel, with its check value. -/
def silentRest : List Byte := List.replicate 145 0 ++ [0xDF, 0x00]

/-- `ready` with one cue in the pool. -/
def withCue (c : Cue) : State := { ready with cue := { resetCues with pool := [c] } }

def markCue : Cue :=
  { screen := 0, id := 1, position := 100, action := .mark, lateLimit := 0, catchUp := true, state := .armed }

/-- `ready` with reports on their way. -/
def withMail (m : Mail) : State := { ready with mail := m }

def lostId : AlarmId := { kind := .linkLost, scope := .screen 0, index := 0 }

def faultId : AlarmId := { kind := .relayFault, scope := .device, index := 0 }

def activeOf (id : AlarmId) (present acknowledged : Bool) : ActiveEntry :=
  { id := id, severity := .critical, action := .fallback, present := present, acknowledged := acknowledged, count := 1
    firstRaise := 0, latestRaise := 0, position := none }

def withActive (s : State) (e : ActiveEntry) : State := { s with alarm := { s.alarm with active := [e] } }

/-- A relay master with expander 0 present and the bus as given. -/
def relayIn (b : BusState) (f : Option Flight) : RelayMaster :=
  { resetRelay false false with
    expanders := update (resetRelay false false).expanders 0 fun x => { x with present := true }
    bus := b, flight := f }

def flightOf (wide verify inVerify : Bool) (bytes : Nat) : Flight :=
  { expander := 0, image := 0, address := 8, wide := wide, verify := verify, inVerify := inVerify, bytes := bytes
    value := 0, settled := false, recovering := false }

def withRelay (r : RelayMaster) : State := { ready with relay := r }

/-- `ready` with a request held at port A. -/
def holding (h : HeldRequest) : State :=
  { ready with port := { resetPorts with ports := update resetPorts.ports 0 fun r => { r with slot := .pending h } } }

def statusRequest : HeldRequest := { kind := 1, code := 0x70, length := 0, arguments := [], malformed := false }

/-! ### A state and operands for the hypotheses of each statement -/

/-- Most statements ask only that the part runs. -/
theorem witness_Running : Running State.reset ∧ Running ready ∧ Running playing := by decide

/-- A hold that a cue event of screen 0 sent is on its way. -/
def holdOnItsWay (advances : List Advance) : State := withMail { noMail with holds := [⟨0, true⟩], advances := advances }

theorem event_is_coming (advances : List Advance) : EventsComing 0 (holdOnItsWay advances) :=
  .inr ⟨⟨0, true⟩, List.mem_singleton.mpr rfl, rfl, rfl⟩

/-- A CUE_MARK of screen 0 is on its way. -/
def markOnItsWay (advances : List Advance) : State :=
  withMail { noMail with alarms := [raiseOf ⟨.cueMark, .screen 0, 0⟩], advances := advances }

theorem mark_is_coming (advances : List Advance) : EventsComing 0 (markOnItsWay advances) :=
  .inl ⟨_, List.mem_singleton.mpr rfl, rfl, rfl, .inr (.inr rfl)⟩

theorem no_event_is_coming (advances : List Advance) (n : Fin 8) :
    ¬EventsComing n (withMail { noMail with advances := advances }) := by
  simp [EventsComing, withMail, noMail]

theorem witness_EveryCommandCompletes :
    (∃ (c : Instr) (s : State), s.system.lineHeld = true ∧ actsOnHeldLine c = false)
    ∧ (∃ s, Running s ∧ NoOccasion .ringTransferComplete s) ∧ (∃ s, Running s ∧ NoOccasion (.alarmRaise lostId) s)
    ∧ ∃ s, Running s ∧ s.mail.advances ≠ [] ∧ NoOccasion (.positionAdvance 0) s :=
  ⟨⟨.getStatus .A, { ready with system := { ready.system with lineHeld := true } }, by decide⟩,
   ⟨ready, rfl, fun _ _ h => nomatch h⟩, ⟨ready, rfl, fun _ h => nomatch h⟩,
   holdOnItsWay [⟨0, 0, .start⟩], rfl, by decide, .inr (event_is_coming _)⟩

theorem witness_HouseCountRisesAtBoundaries :
    ∃ c s t, exec c s = .next t ∧ Running s ∧ ∀ b low, c ≠ .housePeriodBoundary b low :=
  ⟨.clockHoldEnd, ready, _, rfl, by decide, by intro b low h; cases h⟩

theorem witness_LineResetKeepsTheSdram :
    (∃ s a w, (a, w) ∈ wordsInWriting s) ∧ (∃ s a, ∀ w, (a, w) ∉ wordsInWriting s)
    ∧ ∃ s : State, s.system.lineHeld = true :=
  ⟨⟨{ ready with memory := { ready.memory with bus := .ring (.write 0 0 [5]) true } }, 65536, 5, by decide⟩,
   ⟨ready, 0, by intro w h; cases h⟩, { ready with system := { ready.system with lineHeld := true } }, rfl⟩

theorem witness_ResetPartKeepsMemoryAndDirectory :
    (∃ s, Running s ∧ s.library.slots[0].state ≠ .writing ∧ s.library.slots[47].state = .writing)
    -- what the bus may be carrying
    ∧ (∃ s, Running s ∧ s.memory.bus = .none) ∧ (∃ s, Running s ∧ s.memory.bus = .init)
    ∧ (∃ s, Running s ∧ s.memory.bus = .refresh)
    ∧ (∃ s vs, Running s ∧ s.memory.bus = .ring (.write 127 12280 vs) true ∧ vs.length = 48)
    ∧ (∃ s, Running s ∧ s.memory.bus = .ring (.read 0 12287 48) true)
    ∧ ∀ write : Bool, ∃ s words, Running s ∧ s.memory.bus = .burst ⟨47, 1, write⟩ words true
        ∧ (write = true ↔ words ≠ []) := by
  let carrying (bus : BusOperation) : State := libraryState [] none bus
  refine ⟨⟨{ ready with library := { resetLibrary with slots := update resetLibrary.slots 47 fun d => { d with state := .writing } } },
      by decide⟩,
    ⟨ready, by decide⟩, ⟨State.reset, by decide⟩, ⟨carrying .refresh, by decide⟩,
    ⟨carrying (.ring (.write 127 12280 silence) true), silence, by decide⟩,
    ⟨carrying (.ring (.read 0 12287 48) true), by decide⟩,
    fun write => ⟨carrying (.burst ⟨47, 1, write⟩ (if write then [7] else []) true), if write then [7] else [], ?_⟩⟩
  cases write <;> decide

/-- `ready` with one log entry, and the next sequence number after it. -/
def oneLogged : State :=
  { ready with alarm := { resetAlarm with
      log := [{ sequence := 0, period := 5, id := lostId, severity := .warning, raised := true }], nextSequence := 1 } }

theorem witness_ReadingRequestsChangeNothing :
    (∃ c p n, readingRequest c = some (p, n) ∧ ∀ k, n = some k → k < 8)
    ∧ (∃ c p n, readingRequest c = some (p, some n) ∧ n < 8)
    -- READ_LOG from a held entry, from the next number, and from another
    ∧ (∃ s : State, Running s ∧ ∃ before e after, s.alarm.log = before ++ e :: after ∧ e.sequence = BitVec.ofNat 32 0
        ∧ ∀ x ∈ before, x.sequence ≠ e.sequence)
    ∧ ∀ next : Bool, ∃ (s : State) (start : Nat), Running s ∧ (∀ e ∈ s.alarm.log, e.sequence ≠ BitVec.ofNat 32 start)
        ∧ (s.alarm.nextSequence = BitVec.ofNat 32 start ↔ next = true) :=
  ⟨⟨.getStatus .A, .A, none, rfl, by simp⟩, ⟨.readMeters .C 7, .C, 7, rfl, by decide⟩,
   ⟨oneLogged, rfl, [], _, [], rfl, rfl, by simp⟩,
   fun next => ⟨oneLogged, if next then 1 else 2, by cases next <;> decide⟩⟩

theorem witness_ScreenOutsideRangeIsRefused :
    ∃ c p n, screenRequest c = some (p, n) ∧ 8 ≤ n := ⟨.commit .B 8, .B, 8, rfl, by decide⟩

theorem witness_ScreenOnEntersService :
    (∃ s n, Running s ∧ s.screens[(n : Fin 8)].state ≠ .off)
    ∧ (∃ s n, Running s ∧ s.screens[(n : Fin 8)].state = .off ∧ s.memory.state = .initialising)
    ∧ (∃ s n, Running s ∧ s.screens[(n : Fin 8)].state = .off ∧ s.memory.state = .ready
        ∧ ∀ a ∈ s.mail.advances, a.screen ≠ n)
    ∧ (∃ s, ∃ n : Fin 8, ∃ (a : Advance) (before after : List Advance), Running s ∧ s.screens[n].state = .off
        ∧ s.memory.state = .ready ∧ s.mail.advances = before ++ a :: after ∧ (∀ x ∈ before, x.screen ≠ n)
        ∧ a.screen = n ∧ ¬EventsComing n s)
    -- with a hold of a cue event, and with a raise of one that brings none
    ∧ (∃ s, ∃ n : Fin 8, ∃ (a : Advance) (before after : List Advance), Running s ∧ s.screens[n].state = .off
        ∧ s.memory.state = .ready ∧ s.mail.advances = before ++ a :: after ∧ (∀ x ∈ before, x.screen ≠ n)
        ∧ a.screen = n ∧ EventsComing n s ∧ s.mail.holds ≠ [])
    ∧ ∃ s, ∃ n : Fin 8, ∃ (a : Advance) (before after : List Advance), Running s ∧ s.screens[n].state = .off
        ∧ s.memory.state = .ready ∧ s.mail.advances = before ++ a :: after ∧ (∀ x ∈ before, x.screen ≠ n)
        ∧ a.screen = n ∧ EventsComing n s ∧ s.mail.holds = [] :=
  ⟨⟨playing, 0, by decide⟩, ⟨State.reset, 7, by decide⟩, ⟨ready, 7, by decide⟩,
   ⟨withMail { noMail with advances := [⟨1, 0, .start⟩, ⟨0, 0, .jumpForward⟩] }, 0, ⟨0, 0, .jumpForward⟩, [⟨1, 0, .start⟩], [],
    rfl, by decide, rfl, rfl, by decide, rfl, no_event_is_coming _ 0⟩,
   ⟨holdOnItsWay [⟨0, 0, .jumpForward⟩], 0, ⟨0, 0, .jumpForward⟩, [], [], rfl, by decide, rfl, rfl, by decide, rfl,
    event_is_coming _, by decide⟩,
   markOnItsWay [⟨0, 0, .jumpForward⟩], 0, ⟨0, 0, .jumpForward⟩, [], [], rfl, by decide, rfl, rfl, by decide, rfl,
   mark_is_coming _, rfl⟩

theorem witness_ScreenOffLeavesService :
    (∃ s n, Running s ∧ s.screens[(n : Fin 8)].state = .off)
    ∧ (∃ s n, Running s ∧ s.screens[(n : Fin 8)].state ≠ .off ∧ inService n s = true)
    ∧ (∃ s n d b r, Running s ∧ s.screens[(n : Fin 8)].state ≠ .off ∧ inService n s = false
        ∧ s.bank.drafts[n] = some d ∧ d.state = .committing ∧ d.content = some b ∧ s.gain.levels[n].ramp = some r)
    ∧ (∃ s n, Running s ∧ s.screens[(n : Fin 8)].state ≠ .off ∧ inService n s = false
        ∧ (∀ d, s.bank.drafts[n] = some d → d.state ≠ .committing) ∧ s.gain.levels[n].ramp = none)
    -- a cause addition and a removal of the screen on their way, and an addition of another screen
    ∧ (∃ s n, Running s ∧ s.screens[(n : Fin 8)].state ≠ .off ∧ inService n s = false
        ∧ ∃ a ∈ s.mail.causes, ∃ b ∈ s.mail.causes, ∃ c ∈ s.mail.causes, a.screen = n ∧ a.add = true ∧ a.stale = false
          ∧ b.screen = n ∧ b.add = false ∧ c.screen ≠ n ∧ c.add = true)
    -- staged changes that reset the steering state and start a section from rest
    ∧ (∃ s n q d b, Running s ∧ s.screens[(n : Fin 8)].state ≠ .off ∧ inService n s = false
        ∧ s.decoder[n].staged = some q ∧ q.mode ≠ s.decoder[n].profile.mode ∧ s.bank.drafts[n] = some d
        ∧ d.state = .committing ∧ d.content = some b ∧ (b[3]).sections[5].inUse = true
        ∧ (s.bank.banks[n][3]).sections[5].inUse = false)
    ∧ ∃ s n, Running s ∧ s.screens[(n : Fin 8)].state ≠ .off ∧ inService n s = false
        ∧ ∃ e ∈ s.alarm.active, e.present = true ∧ e.id.scope = .screen n ∧ isCondition e.id.kind = true
          ∧ validId e.id = true :=
  ⟨⟨ready, 0, by decide⟩, ⟨serving .done, 0, by decide⟩,
   ⟨{ withDraft (draftIn .committing) with
        screens := playing.screens
        gain := { resetGain with levels := update resetGain.levels 0 fun m =>
          { m with ramp := some { start := 0, target := 1, length := 2, done := 0 } } } },
    0, draftIn .committing, emptyBank, { start := 0, target := 1, length := 2, done := 0 }, by decide +kernel⟩,
   ⟨playing, 0, by decide, by decide, by decide, (by intro d h; cases h), by decide⟩,
   ⟨{ playing with mail := { noMail with causes := [⟨0, lostId, true, false⟩, ⟨0, lostId, false, false⟩, ⟨1, lostId, true, false⟩] } },
    0, by decide, by decide, by decide, ⟨0, lostId, true, false⟩, by decide, ⟨0, lostId, false, false⟩, by decide,
    ⟨1, lostId, true, false⟩, by decide⟩,
   ⟨{ withDraft { draftIn .committing with content := some unstableBank } with
        screens := playing.screens
        decoder := update ready.decoder 0 fun d => { d with staged := some { resetProfile with mode := .matrix } } },
    0, { resetProfile with mode := .matrix }, { draftIn .committing with content := some unstableBank }, unstableBank,
    by decide +kernel⟩,
   withActive playing (activeOf lostId true false), 0, by decide, by decide, by decide, activeOf lostId true false,
   by decide, by decide⟩

theorem witness_ForceFallbackAndResumeMoveTheHold :
    (∃ s n, Running s ∧ s.screens[(n : Fin 8)].state = .off)
    ∧ (∃ s n, Running s ∧ s.screens[(n : Fin 8)].state ≠ .off ∧ s.screens[n].causes ≠ [])
    ∧ ∃ s n, Running s ∧ s.screens[(n : Fin 8)].state = .fallback ∧ s.screens[n].causes = []
        ∧ FollowsRule s.screens[n] :=
  ⟨⟨ready, 0, by decide⟩,
   ⟨withContext { inState .fallback .locked with causes := [lostId] }, 0, by decide⟩,
   withContext { inState .fallback .locked with hold := true }, 0, by decide, by decide, by decide,
   ⟨by decide, by decide, by decide, by decide⟩⟩

theorem witness_ReportsMoveTheScreen :
    (∃ s n st before after, Running s ∧ s.mail.links = before ++ ((n : Fin 8), (st : LinkState)) :: after
      ∧ (∀ r ∈ before, r.1 ≠ n) ∧ s.screens[n].state ≠ .off)
    ∧ (∃ s, ∃ m : CauseMessage, ∃ before after, Running s ∧ m.add = true ∧ s.mail.causes = before ++ m :: after
      ∧ (∀ x ∈ before, ¬(x.add = true ∧ x.id = m.id)) ∧ s.screens[m.screen].state ≠ .off ∧ m.stale = false)
    ∧ (∃ s, ∃ m : CauseMessage, ∃ before after, Running s ∧ m.add = true ∧ s.mail.causes = before ++ m :: after
      ∧ (∀ x ∈ before, ¬(x.add = true ∧ x.id = m.id)) ∧ s.screens[m.screen].state = .off)
    ∧ ∃ s, ∃ m : CauseMessage, ∃ before after, Running s ∧ m.add = false ∧ s.mail.causes = before ++ m :: after
      ∧ (∀ x ∈ before, ¬(x.add = false ∧ x.id = m.id)) ∧ s.screens[m.screen].state ≠ .off :=
  ⟨⟨{ playing with mail := { noMail with links := [(0, .holdover)] } }, 0, .holdover, [], [], by decide, rfl, by simp,
    by decide⟩,
   ⟨{ playing with mail := { noMail with causes := [⟨0, lostId, true, false⟩] } }, ⟨0, lostId, true, false⟩, [], [],
    by decide, rfl, rfl, by simp, by decide, rfl⟩,
   ⟨{ ready with mail := { noMail with causes := [⟨0, lostId, true, false⟩] } }, ⟨0, lostId, true, false⟩, [], [],
    by decide, rfl, rfl, by simp, by decide⟩,
   { playing with mail := { noMail with causes := [⟨0, lostId, false, false⟩] } }, ⟨0, lostId, false, false⟩, [], [],
    by decide, rfl, rfl, by simp, by decide⟩

/-- `s` with one command in front that completes. -/
def withCommand (s : State) : State := { s with pending := [.clockHoldEnd] }

theorem step_withCommand (s : State) : ∃ t, step (withCommand s) = .next t :=
  (whenRunning_exists { s with pending := [] }
    (onRelay (fun r => { r with clockHeld := false }) { s with pending := [] })).elim fun t h => ⟨t, h.1⟩

theorem witness_EveryStepKeepsTheScreenRule :
    ∃ s t, ScreensFollowRule s ∧ s.screens[0].state = .playing ∧ step s = .next t := by
  obtain ⟨t, ht⟩ := step_withCommand playing
  refine ⟨withCommand playing, t, ?_, by decide, ht⟩
  simp only [ScreensFollowRule, FollowsRule]
  decide

theorem witness_EveryStepKeepsTheAccounting :
    ∃ s t, AccountsKept s ∧ s.screens[0].outstanding = 1 ∧ step s = .next t := by
  obtain ⟨t, ht⟩ := step_withCommand (serving .done)
  refine ⟨withCommand (serving .done), t, ?_, by decide, ht⟩
  simp only [AccountsKept, AccountKept]
  decide

theorem witness_BoundaryFeedsTheOutputPorts :
    (∃ s n, Running s ∧ s.screens[(n : Fin 8)].state = .off)
    ∧ (∃ s n first rest, Running s ∧ s.screens[(n : Fin 8)].state ≠ .off ∧ s.screens[n].queue = first :: rest
        ∧ s.screens[n].outstanding < 3)
    ∧ (∃ s n, Running s ∧ s.screens[(n : Fin 8)].state ≠ .off ∧ s.screens[n].queue = [] ∧ s.screens[n].outstanding < 3)
    ∧ (∃ s n, Running s ∧ s.screens[(n : Fin 8)].state ≠ .off ∧ AccountKept s n ∧ s.screens[n].outstanding = 3
        ∧ s.screens[n].offPending = false ∧ inService n s = false)
    ∧ (∃ s n, Running s ∧ s.screens[(n : Fin 8)].state ≠ .off ∧ AccountKept s n ∧ s.screens[n].outstanding = 3
        ∧ s.screens[n].offPending = false ∧ inService n s = true)
    ∧ ∃ s n, Running s ∧ s.screens[(n : Fin 8)].state ≠ .off ∧ AccountKept s n ∧ s.screens[n].outstanding = 3
        ∧ s.screens[n].offPending = true := by
  let late : ScreenContext := { inState .ready .down with queue := [], outstanding := 3, owed := 1 }
  let busy : Engine := { resetEngine with service := some (serviceOf .done) }
  refine ⟨⟨ready, 0, by decide⟩, ⟨playing, 0, silentBlock, [silentBlock], by decide⟩,
    ⟨withContext { late with outstanding := 2, owed := 0 }, 0, by decide⟩, ⟨withContext late, 0, ?_⟩,
    ⟨{ withContext late with engine := busy }, 0, ?_⟩,
    { withContext { late with offPending := true } with engine := busy }, 0, ?_⟩
  all_goals simp only [AccountKept]; decide

theorem witness_BoundaryStepsEveryTimer :
    (∃ s, Running s ∧ (∀ n : Fin 8, NoOverflow s n) ∧ s.screens[0].state ≠ .off ∧ s.gain.levels[0].ramp = none
      ∧ s.links[0].quiet = 99 ∧ s.links[0].state = .acquiring ∧ s.cue.lines[0].pulse = false)
    ∧ (∃ s r, Running s ∧ (∀ n : Fin 8, NoOverflow s n) ∧ s.screens[0].state ≠ .off
      ∧ s.gain.levels[0].ramp = some r ∧ r.done + 1 < r.length ∧ s.cue.lines[0].pulse = true
      ∧ s.cue.lines[0].remaining = 2)
    ∧ ∃ s r, Running s ∧ (∀ n : Fin 8, NoOverflow s n) ∧ s.screens[0].state ≠ .off
      ∧ s.gain.levels[0].ramp = some r ∧ r.length = r.done + 1 ∧ s.cue.lines[0].pulse = true
      ∧ s.cue.lines[0].remaining = 1 := by
  let ramping (r : Ramp) : GainStage :=
    { resetGain with levels := update resetGain.levels 0 fun m => { m with ramp := some r } }
  let pulsing (k : Nat) : CueScheduler :=
    { resetCues with lines := update resetCues.lines 0 fun _ => { pulse := true, level := true, remaining := k } }
  refine ⟨⟨{ playing with
      links := update playing.links 0 fun l => { l with state := .acquiring, acquisition := 1, quiet := 99 } }, ?_⟩,
    ⟨{ playing with gain := ramping ⟨0, 9, 2, 0⟩, cue := pulsing 2 }, ⟨0, 9, 2, 0⟩, ?_⟩,
    { playing with gain := ramping ⟨9, 0, 2, 1⟩, cue := pulsing 1 }, ⟨9, 0, 2, 1⟩, ?_⟩
  all_goals simp only [NoOverflow]; decide

theorem witness_BoundaryEndsWaits :
    -- a draft due and one not due, on a screen without an overflow and on one with it; the screen has no draft
    (∀ due overflow : Bool, ∃ s d p touch, Running s ∧ s.bank.drafts[0] = some d ∧ d.holder = .port p touch
      ∧ d.state ≠ .committing ∧ (s.system.housePeriods + 1 - touch).toNat = (if due then 30000 else 29999)
      ∧ (NoOverflow s 0 ↔ overflow = false))
    ∧ (∀ overflow : Bool, ∃ s d, Running s ∧ s.bank.drafts[0] = some d ∧ d.state = .committing
      ∧ (NoOverflow s 0 ↔ overflow = false))
    ∧ (∃ s, Running s ∧ s.bank.drafts[0] = none)
    ∧ (∃ s, Running s ∧ s.relay.bus = .idle)
    ∧ (∃ s, Running s ∧ s.relay.bus ≠ .idle ∧ s.relay.stretch = 24)
    -- the step of an unsettled transaction, and the STOP of a settled one, at 25
    ∧ (∀ settled : Bool, ∃ s f, Running s ∧ s.relay.flight = some f ∧ s.relay.stretch = 25 ∧ f.recovering = false
      ∧ s.relay.bus ≠ .idle ∧ s.relay.bus ≠ .recover ∧ f.settled = settled)
    ∧ ∀ stop : Bool, ∃ s f, Running s ∧ s.relay.flight = some f ∧ s.relay.stretch = 25 ∧ f.recovering = true
      ∧ s.relay.bus = if stop then .stop else .recover := by
  let onScreen (overflow : Bool) (s : State) : State :=
    { s with screens := (withContext { inState .playing .locked with queue := [], outstanding := if overflow then 3 else 2 }).screens }
  refine ⟨fun due overflow => ⟨onScreen overflow { withDraft (draftIn .editable) with
        system := { State.reset.system with housePeriods := if due then 29999 else 29998 } }, draftIn .editable, .A, 0, ?_⟩,
    fun overflow => ⟨onScreen overflow (withDraft (draftIn .committing)), draftIn .committing, ?_⟩,
    ⟨ready, by decide⟩, ⟨ready, by decide⟩,
    ⟨withRelay { relayIn .address (some (flightOf true true false 0)) with stretch := 24 }, by decide⟩,
    fun settled => ⟨withRelay { relayIn (if settled then .stop else .writeData)
          (some { flightOf true true false 1 with settled := settled }) with stretch := 25 },
      { flightOf true true false 1 with settled := settled }, by cases settled <;> decide⟩,
    fun stop => ⟨withRelay
        { relayIn (if stop then .stop else .recover)
            (some { flightOf true true false 1 with settled := true, recovering := true }) with stretch := 25 },
      { flightOf true true false 1 with settled := true, recovering := true }, by cases stop <;> decide⟩⟩
  · simp only [NoOverflow]; cases due <;> cases overflow <;> decide +kernel
  · simp only [NoOverflow]; cases overflow <;> decide +kernel

theorem witness_TimeoutsActWhenDue :
    (∃ s, Running s ∧ s.links[0].state = .acquiring ∧ s.links[0].quiet = 100)
    ∧ (∃ s, Running s ∧ s.screens[0].state = .off ∧ s.links[0].state = .holdover ∧ s.links[0].quiet = 100)
    ∧ (∃ s, Running s ∧ s.links[0].state = .holdover ∧ s.links[0].missed = 32)
    ∧ (∃ s d p touch, Running s ∧ s.bank.drafts[0] = some d ∧ d.holder = .port p touch ∧ d.state = .editable
        ∧ (s.system.housePeriods - touch).toNat = 30000)
    ∧ (∃ s d p touch before e after, Running s ∧ s.bank.drafts[0] = some d ∧ d.holder = .port p touch
        ∧ d.state = .loading ∧ (s.system.housePeriods - touch).toNat = 30000 ∧ IsDraftsLoad 0 s before e after)
    ∧ (∃ s d p touch, Running s ∧ s.bank.drafts[0] = some d ∧ d.holder = .port p touch ∧ d.state = .editable
        ∧ (s.system.housePeriods - touch).toNat = 29999)
    ∧ (∃ s, ∃ i : Fin 8, Running s ∧ s.cue.lines[i].pulse = true ∧ s.cue.lines[i].remaining = 0)
    ∧ (∃ s f, Running s ∧ s.relay.flight = some f ∧ s.relay.bus = .recover ∧ s.relay.clockHeld = true
        ∧ s.relay.stretch = 26)
    ∧ (∃ s f, Running s ∧ s.relay.flight = some f ∧ f.recovering = true ∧ s.relay.bus = .stop
        ∧ s.relay.clockHeld = true ∧ s.relay.stretch = 26)
    ∧ (∃ s, Running s ∧ s.relay.clockHeld = true ∧ s.relay.stretch = 25)
    ∧ (∃ s, Running s ∧ (s.links[0].state ≠ .acquiring ∨ s.links[0].quiet ≠ 100) ∧ s.links[0].quiet ≠ 100
        ∧ s.links[0].missed < 32 ∧ s.bank.drafts[0] = none ∧ s.relay.clockHeld = false) :=
  let flight : Flight := { flightOf false false false 0 with settled := true, recovering := true }
  let clock (k : Word) (s : State) : State := { s with system := { State.reset.system with housePeriods := k } }
  ⟨⟨withLink { resetLink with state := .acquiring, acquisition := 1, quiet := 100 }, by decide⟩,
   ⟨withLink { resetLink with state := .holdover, acquisition := 8, missed := 1, quiet := 100 }, by decide⟩,
   ⟨withLink { resetLink with state := .holdover, acquisition := 8, missed := 32 }, by decide⟩,
   ⟨clock 30000 (withDraft (draftIn .editable)), draftIn .editable, .A, 0, by decide +kernel⟩,
   ⟨clock 30000 (loadingDraft [loadEntry] none .none), draftIn .loading, .A, 0, [], loadEntry, [],
    rfl, rfl, rfl, rfl, by decide +kernel, loadEntry_loads _ [] [] rfl (by simp)⟩,
   ⟨clock 29999 (withDraft (draftIn .editable)), draftIn .editable, .A, 0, by decide +kernel⟩,
   ⟨{ ready with cue := { resetCues with
      lines := update resetCues.lines 0 fun _ => { pulse := true, level := true, remaining := 0 } } }, 0, by decide⟩,
   ⟨withRelay { relayIn .recover (some flight) with stretch := 26, clockHeld := true }, flight, by decide⟩,
   ⟨withRelay { relayIn .stop (some flight) with stretch := 26, clockHeld := true }, flight, by decide⟩,
   ⟨withRelay { relayIn .stop (some flight) with stretch := 25, clockHeld := true }, by decide⟩,
   ready, by decide⟩

theorem witness_ControllerInitialisesAndRefreshes :
    (∃ s, Running s ∧ s.memory.bus = .init ∧ s.memory.step = .wait)
    ∧ (∃ s, Running s ∧ s.memory.bus = .init ∧ s.memory.step = .precharge)
    ∧ (∃ s k, Running s ∧ s.memory.bus = .init ∧ s.memory.step = .refresh k ∧ k = 7)
    ∧ (∃ s, Running s ∧ s.memory.bus = .init ∧ s.memory.step = .refresh 8)
    ∧ (∃ s, Running s ∧ s.memory.bus = .init ∧ s.memory.step = .modeSet)
    ∧ (∃ s, Running s ∧ s.memory.timerRunning = true ∧ s.memory.pending = 7)
    ∧ (∃ s, Running s ∧ s.memory.timerRunning = false)
    ∧ ∃ s, Running s ∧ s.memory.bus = .refresh ∧ s.memory.pending = 1 :=
  ⟨⟨State.reset, by decide⟩, ⟨{ State.reset with memory := { resetMemory [] with step := .precharge } }, by decide⟩,
   ⟨{ State.reset with memory := { resetMemory [] with step := .refresh 7 } }, 7, by decide⟩,
   ⟨{ State.reset with memory := { resetMemory [] with step := .refresh 8 } }, by decide⟩,
   ⟨{ State.reset with memory := { resetMemory [] with step := .modeSet } }, by decide⟩,
   ⟨{ ready with memory := { ready.memory with pending := 7 } }, by decide⟩, ⟨State.reset, by decide⟩,
   { ready with memory := { ready.memory with pending := 1, bus := .refresh } }, by decide⟩

theorem witness_BusGoesToTheFirstThatApplies :
    (∃ s, Running s ∧ s.memory.state = .ready ∧ s.memory.bus = .none ∧ s.memory.pending = 8)
    ∧ (∃ s x rest, Running s ∧ s.memory.state = .ready ∧ s.memory.bus = .none ∧ s.memory.pending = 7
        ∧ s.memory.ringList = x :: rest)
    ∧ (∃ s b, Running s ∧ s.memory.state = .ready ∧ s.memory.bus = .none ∧ s.memory.pending < 8
        ∧ s.memory.ringList = [] ∧ s.memory.libraryRequest = some b ∧ b.write = true ∧ b.number = 32)
    ∧ (∃ s b, Running s ∧ s.memory.state = .ready ∧ s.memory.bus = .none ∧ s.memory.pending < 8
        ∧ s.memory.ringList = [] ∧ s.memory.libraryRequest = some b ∧ b.write = true ∧ b.number = 33)
    ∧ (∃ s, Running s ∧ s.memory.state = .ready ∧ s.memory.bus = .none ∧ s.memory.pending = 1
        ∧ s.memory.ringList = [] ∧ s.memory.libraryRequest = none)
    ∧ (∃ s, Running s ∧ s.memory.state = .ready ∧ s.memory.bus = .none ∧ s.memory.pending = 0
        ∧ s.memory.ringList = [] ∧ s.memory.libraryRequest = none)
    ∧ ∃ s, Running s ∧ s.memory.bus ≠ .none :=
  ⟨⟨{ ready with memory := { ready.memory with pending := 8 } }, by decide⟩,
   ⟨{ ready with memory := { ready.memory with pending := 7, ringList := [.read 127 0 48] } }, .read 127 0 48, [],
    by decide⟩,
   ⟨{ ready with memory := { ready.memory with libraryRequest := some ⟨0, 32, true⟩ } }, ⟨0, 32, true⟩, by decide⟩,
   ⟨{ ready with memory := { ready.memory with libraryRequest := some ⟨0, 33, true⟩ } }, ⟨0, 33, true⟩, by decide⟩,
   ⟨{ ready with memory := { ready.memory with pending := 1 } }, by decide⟩, ⟨ready, by decide⟩, State.reset, by decide⟩

theorem witness_MemoryMapKeepsItsRegions :
    (∃ (k l : Fin 128) (i j : Nat), i < 12288 ∧ j < 12288 ∧ ringWord k i = ringWord l j)
    ∧ ∃ (b : Burst) (j : Nat), b.slot = 47 ∧ b.number = 33 ∧ j < burstLength b :=
  ⟨⟨127, 127, 12287, 12287, by decide⟩, ⟨47, 33, true⟩, 3, by decide⟩

theorem witness_RingWriteReachesTheSdram :
    (∃ s vs, Running s ∧ s.memory.bus = .ring (.write 127 12240 vs) false ∧ vs.length = 48)
    ∧ ∃ s vs v, Running s ∧ s.memory.bus = .ring (.write 0 12240 vs) true ∧ vs.length ≤ 12288
        ∧ s.engine.service = some v :=
  ⟨⟨{ ready with memory := { ready.memory with bus := .ring (.write 127 12240 silence) false } }, silence, by decide⟩,
   { serving .write with memory := { ready.memory with bus := .ring (.write 0 12240 silence) true } }, silence,
   serviceOf .write, by decide⟩

def delayedBank : BankController :=
  { resetBank with
    banks := update resetBank.banks 0 fun b => update b 15 fun r => { r with delay := 12240 } }

theorem witness_ChannelsPassThroughTheirRings :
    (∃ s v first, Running s ∧ s.memory.bus = .ring (.read 15 0 48) true ∧ s.engine.service = some v
      ∧ v.channels[ringChannel 15].stage = .read first)
    ∧ (∃ s, Running s ∧ s.memory.bus = .ring (.read 0 0 48) false)
    ∧ (∃ s v, ∃ c : Fin 16, Running s ∧ s.engine.service = some v ∧ v.channels[c].stage = .sections
        ∧ v.sources[c].length = 48 ∧ (s.bank.banks[v.screen][c]).delay = 12240)
    ∧ (∃ s v, ∃ c : Fin 16, Running s ∧ s.engine.service = some v ∧ v.channels[c].stage = .sections
        ∧ (s.bank.banks[v.screen][c]).delay = 0 ∧ v.channels[c].readDelay = 0)
    ∧ (∃ s v, ∃ c : Fin 16, Running s ∧ s.engine.service = some v ∧ v.channels[c].stage = .sections
        ∧ (s.bank.banks[v.screen][c]).delay = 0 ∧ v.channels[c].readDelay = 12240)
    ∧ (∃ s v, ∃ c : Fin 16, Running s ∧ s.engine.service = some v
        ∧ s.memory.bus = .ring (.write (ringOf v.screen c) 12240 v.channels[c].post) true)
    ∧ (∃ (ring : RingRecord) (d : Nat), 0 < d ∧ ∀ i, i < 48 → ¬InMemory ring d i)
    ∧ (∃ ring : RingRecord, InMemory ring 12240 0)
    ∧ ∃ ring : RingRecord, InMemory ring 12239 47 ∧ ∀ i, i < 47 → ¬InMemory ring 12239 i :=
  let delayed : Service := { serviceOf .sections with
    channels := Vector.replicate 16
      { readDelay := 12240, fade := .none, stage := .sections, post := silence, output := silence } }
  ⟨⟨{ serving (.read 0) with memory := { ready.memory with bus := .ring (.read 15 0 48) true } }, serviceOf (.read 0), 0,
    by decide⟩,
   ⟨{ ready with memory := { ready.memory with bus := .ring (.read 0 0 48) false } }, by decide⟩,
   ⟨{ serving .sections with bank := delayedBank }, serviceOf .sections, 15, by decide⟩,
   ⟨serving .sections, serviceOf .sections, 0, by decide⟩,
   ⟨{ serving .sections with engine := { resetEngine with service := some delayed } }, delayed, 15, by decide⟩,
   ⟨{ serving .write with memory := { ready.memory with bus := .ring (.write 15 12240 silence) true } },
    serviceOf .write, 15, by decide⟩,
   ⟨{ writeIndex := 48, history := 1, zeros := 1 }, 1, by decide, by simp only [InMemory]; decide⟩,
   ⟨{ writeIndex := 48, history := 256, zeros := 0 }, by simp only [InMemory]; decide⟩,
   { writeIndex := 48, history := 255, zeros := 0 }, by simp only [InMemory]; decide, by simp only [InMemory]; decide⟩

theorem witness_EveryStepKeepsTheMemory :
    ∃ s t, MemoryKept s ∧ s.memory.sdram ≠ [] ∧ step s = .next t := by
  let s1 : State := { ready with memory := { ready.memory with sdram := [(0, 1), (65536, 2)] } }
  obtain ⟨t, ht⟩ := step_withCommand s1
  refine ⟨withCommand s1, t, ?_, by decide, ht⟩
  simp only [MemoryKept, RingKept]
  decide +kernel

theorem witness_ImageGivesBackItsBank :
    (∃ (b : Bank) (tag : Word) (slot : Slot), BankInRange b ∧ slot.tag = tag ∧ slot.check = (imageOf tag b).getD 2 0)
    ∧ (∃ (slot : Slot) (image : List Word), checkValue (image.drop 4) ≠ slot.check)
    -- an image that is good, and one that is bad for its header's format alone
    ∧ ∀ good : Bool, ∃ (slot : Slot) (image : List Word), image.length = 1028 ∧ imageGood slot image = good
        ∧ (image.drop 4).sum ^^^ 1024 = slot.check := by
  refine ⟨⟨emptyBank, 9, { emptySlot with tag := 9, check := 0x400400 }, ?_, rfl, by decide +kernel⟩,
    ⟨{ emptySlot with check := 7 }, List.replicate 1028 0, by decide +kernel⟩,
    fun good => ⟨{ emptySlot with tag := 9, check := 0x400400 },
      [9, 1024, 0x400400, if good then 1 else 2] ++ (imageOf 9 emptyBank).drop 4, ?_⟩⟩
  · simp only [BankInRange, RecordInRange, SectionInRange]
    decide +kernel
  · cases good <;> decide +kernel

theorem witness_LibraryStartsItsOldestEntry :
    (∃ s e rest, Running s ∧ s.library.progress = none ∧ s.library.queue = e :: rest ∧ e.task = .load)
    ∧ (∃ s e rest, Running s ∧ s.library.progress = none ∧ s.library.queue = e :: rest ∧ e.task = .save 5)
    ∧ ∃ s, Running s ∧ s.library.queue = [] :=
  ⟨⟨libraryState [loadEntry] none .none, loadEntry, [], by decide⟩,
   ⟨libraryState [saveEntry] none .none, saveEntry, [], by decide⟩, ready, by decide⟩

theorem witness_LibraryBurstsCarryTheTransfer :
    (∃ s b words live, Running s ∧ s.memory.bus = .burst b words live ∧ b.write = true ∧ words ≠ [])
    ∧ (∃ s b words, Running s ∧ s.memory.bus = .burst b words false ∧ b.write = false)
    ∧ (∀ number : Nat, ∃ s b words, Running s ∧ s.memory.bus = .burst b words true ∧ b.write = false
        ∧ b.number = number ∧ s.library.buffer.length = 1028)
    ∧ (∃ s b words e rest, Running s ∧ s.memory.bus = .burst b words true ∧ s.library.queue = e :: rest
        ∧ s.library.progress = some 31 ∧ e.discarded = false)
    ∧ (∃ s b words e rest tag, Running s ∧ s.memory.bus = .burst b words true ∧ b.write = true
        ∧ s.library.queue = e :: rest ∧ s.library.progress = some 32 ∧ e.discarded = false ∧ e.task = .save tag)
    ∧ (∃ s b words e rest k, Running s ∧ s.memory.bus = .burst b words true ∧ s.library.queue = e :: rest
        ∧ s.library.progress = some k ∧ e.discarded = true ∧ s.memory.libraryRequest = none)
    ∧ (∃ s b words e rest d p touch, Running s ∧ s.memory.bus = .burst b words true ∧ b.write = false
        ∧ s.library.queue = e :: rest ∧ s.library.progress = some 32 ∧ e.discarded = false ∧ e.task = .load
        ∧ s.bank.drafts[e.screen] = some d ∧ d.state = .loading ∧ d.holder = .port p touch)
    ∧ ∀ off : Bool, ∃ s b words e rest d cue, Running s ∧ s.memory.bus = .burst b words true ∧ b.write = false
        ∧ s.library.queue = e :: rest ∧ s.library.progress = some 32 ∧ e.discarded = false ∧ e.task = .load
        ∧ s.bank.drafts[e.screen] = some d ∧ d.state = .loading ∧ d.holder = .cue cue
        ∧ (s.screens[e.screen].state = .off ↔ off = true) := by
  let last : BusOperation := .burst ⟨47, 33, false⟩ [] true
  let cueDraft : Draft := { draftIn .loading with holder := .cue 7 }
  let cueLoad : State := { libraryState [loadEntry] (some 32) last with bank := (withDraft cueDraft).bank }
  refine ⟨⟨libraryState [saveEntry] (some 0) (.burst ⟨0, 1, true⟩ [7] true), ⟨0, 1, true⟩, [7], true, by decide⟩,
    ⟨libraryState [loadEntry] (some 0) (.burst ⟨47, 1, false⟩ [] false), ⟨47, 1, false⟩, [], by decide⟩,
    fun number => ⟨libraryState [loadEntry] (some 0) (.burst ⟨47, number, false⟩ [] true), ⟨47, number, false⟩, [], rfl,
      rfl, rfl, rfl, List.length_replicate⟩,
    ⟨libraryState [loadEntry] (some 31) (.burst ⟨47, 32, false⟩ [] true), ⟨47, 32, false⟩, [], loadEntry, [], by decide⟩,
    ⟨libraryState [saveEntry] (some 32) (.burst ⟨0, 33, true⟩ [] true), ⟨0, 33, true⟩, [], saveEntry, [], 5, by decide⟩,
    ⟨libraryState [{ loadEntry with discarded := true }] (some 32) last, ⟨47, 33, false⟩, [],
      { loadEntry with discarded := true }, [], 32, by decide⟩,
    ⟨loadingDraft [loadEntry] (some 32) last, ⟨47, 33, false⟩, [], loadEntry, [], draftIn .loading, .A, 0, by decide⟩, ?_⟩
  intro off
  cases off
  · exact ⟨{ cueLoad with screens := playing.screens }, ⟨47, 33, false⟩, [], loadEntry, [], cueDraft, 7, by decide⟩
  · exact ⟨cueLoad, ⟨47, 33, false⟩, [], loadEntry, [], cueDraft, 7, by decide⟩

theorem witness_SaveAndEraseActOnTheDirectory :
    (∃ s, Running s ∧ s.memory.state = .initialising)
    ∧ (∃ s, ∃ k : Fin 48, Running s ∧ s.memory.state = .ready ∧ 0 < s.library.slots[k].pending)
    ∧ (∃ s, ∃ k : Fin 48, Running s ∧ s.memory.state = .ready ∧ s.library.slots[k].state ≠ .writing
        ∧ s.library.slots[k].pending = 0 ∧ s.library.queue.length = 4)
    ∧ ∃ s, ∃ k : Fin 48, Running s ∧ s.memory.state = .ready ∧ s.library.slots[k].state ≠ .writing
        ∧ s.library.slots[k].pending = 0 ∧ s.library.queue.length = 3 :=
  ⟨⟨State.reset, by decide⟩,
   ⟨{ ready with library := { resetLibrary with slots := update resetLibrary.slots 47 fun d => { d with pending := 1 } } },
    47, by decide⟩,
   ⟨libraryState (List.replicate 4 loadEntry) none .none, 0, by decide⟩,
   libraryState (List.replicate 3 loadEntry) none .none, 0, by decide⟩

theorem witness_EveryStepKeepsTheLibrary :
    ∃ s t, LibraryKept s ∧ s.library.queue ≠ [] ∧ step s = .next t := by
  let s1 : State := { libraryState [saveEntry] none .none with
    library := { resetLibrary with
      queue := [saveEntry], slots := update resetLibrary.slots 0 fun d => { d with state := .writing } } }
  obtain ⟨t, ht⟩ := step_withCommand s1
  refine ⟨withCommand s1, t, ?_, by decide, ht⟩
  refine ⟨by decide, ?_, by decide, by decide, by decide, by decide, by decide⟩
  intro k h; cases h

/-- The check value over a run of 29 zero bytes, from each value the silent packet passes. -/
theorem crc_zeros :
    (List.replicate 29 0).foldl crcByte 0x1E31#16 = 0x95DC#16 ∧
    (List.replicate 29 0).foldl crcByte 0x95DC#16 = 0x7384#16 ∧
    (List.replicate 29 0).foldl crcByte 0x7384#16 = 0x35C7#16 ∧
    (List.replicate 29 0).foldl crcByte 0x35C7#16 = 0x201B#16 ∧
    (List.replicate 29 0).foldl crcByte 0x201B#16 = 0xDF00#16 := by
  decide +kernel

theorem silent_covered : coveredBytes firstFields silentRest = [0, 0, 0, 0, 0, 1] ++ (List.replicate 29 0
    ++ (List.replicate 29 0 ++ (List.replicate 29 0 ++ (List.replicate 29 0 ++ List.replicate 29 0)))) := by
  decide +kernel

/-- The silent packet's check value is DF00h. -/
theorem silent_check : (crc16 (coveredBytes firstFields silentRest)).toNat = 0xDF00 := by
  have h0 : [0, 0, 0, 0, 0, 1].foldl crcByte 0xFFFF#16 = 0x1E31#16 := by decide +kernel
  obtain ⟨h1, h2, h3, h4, h5⟩ := crc_zeros
  rw [silent_covered, crc16]
  simp only [List.foldl_append, h0, h1, h2, h3, h4, h5]
  rfl

theorem witness_PacketsAreCheckedFirst :
    (∃ s, Running s ∧ s.links[0].reading ≠ none)
    ∧ (∀ fields : Vector Byte 6, ∃ s i bytes, Running s ∧ s.links[0].reading = none ∧ s.links[0].search = [0x5E]
        ∧ i = 1 ∧ FirstSync (s.links[0].search ++ bytes) i
        ∧ (s.links[0].search ++ bytes).drop (i + 2) = fields.toList)
    ∧ (∃ s bytes, Running s ∧ s.links[0].reading = none ∧ bytes ≠ []
        ∧ ∀ i, FirstSync (s.links[0].search ++ bytes) i → (s.links[0].search ++ bytes).length < i + 8)
    ∧ (∀ fields : Vector Byte 6, ∃ s i bytes more, Running s ∧ s.links[0].reading = none
        ∧ FirstSync (s.links[0].search ++ bytes) i
        ∧ (s.links[0].search ++ bytes).drop (i + 2) = fields.toList ++ more ∧ more ≠ [])
    ∧ (∃ s fields rest, Running s ∧ s.links[0].reading = some fields ∧ rest.length = remainingLength fields
        ∧ (crc16 (coveredBytes fields rest)).toNat ≠ carriedCheck rest)
    ∧ ∃ s fields rest, Running s ∧ s.links[0].reading = some fields ∧ rest.length = remainingLength fields
        ∧ (crc16 (coveredBytes fields rest)).toNat = carriedCheck rest
        ∧ fields[0].toNat ≠ s.decoder[0].profile.tag := by
  refine ⟨⟨withLink { resetLink with reading := some firstFields }, by decide⟩,
    fun fields => ⟨withLink { resetLink with search := [0x5E] }, 1, [0x5E, 0xC3] ++ fields.toList, rfl, rfl, rfl, rfl,
      ⟨⟨rfl, rfl⟩, ?_⟩, rfl⟩,
    ⟨ready, [0, 0x5E, 0xC3, 1, 2, 3, 4, 5], rfl, rfl, by decide, ?_⟩,
    fun fields => ⟨ready, 0, [0x5E, 0xC3] ++ fields.toList ++ [0], [0], rfl, rfl, ⟨⟨rfl, rfl⟩, by simp⟩, rfl, by simp⟩,
    ⟨withLink { resetLink with reading := some firstFields }, firstFields, List.replicate 145 0 ++ [0, 0], rfl, rfl,
      by decide +kernel, ?_⟩,
    { withLink { resetLink with reading := some firstFields } with
      decoder := update ready.decoder 0 fun d => { d with profile := { d.profile with tag := 9 } } },
    firstFields, silentRest, rfl, rfl, by decide +kernel, by rw [silent_check]; decide +kernel, by decide⟩
  · intro j hj h
    have : j = 0 := by omega
    subst this
    have h' : some (0x5E : Byte) = some 0xC3 := h.2
    exact absurd h' (by decide)
  · intro i h
    match i with
    | 0 => exact absurd h.1.1 (by decide)
    | i + 1 => simp [ready, State.reset, resetLink]
  · have h : coveredBytes firstFields (List.replicate 145 0 ++ [0, 0]) = coveredBytes firstFields silentRest := by
      decide +kernel
    rw [h, silent_check]
    decide +kernel

/-- A silent packet of tag 0, position 0 and one channel is good on screen 0 in every receiver record that reads it. -/
theorem silent_packet_is_good (l : LinkRecord) :
    GoodPacket 0 firstFields silentRest (withLink { l with reading := some firstFields }) :=
  ⟨rfl, by decide +kernel, by rw [silent_check]; decide +kernel, rfl⟩

theorem witness_GoodPacketsMoveTheLink :
    ∀ l : LinkRecord, ∃ s, Running s ∧ GoodPacket 0 firstFields silentRest s
      ∧ s.links[0] = { l with reading := some firstFields } :=
  fun l => ⟨withLink { l with reading := some firstFields }, rfl, silent_packet_is_good l, rfl⟩

theorem witness_TakesHandOutRanges :
    (∃ (s : State) (q : Packet) (rest : List Packet), s.links[0].state = .locked ∧ s.links[0].queue = q :: rest)
    ∧ (∃ s : State, s.links[0].state = .locked ∧ s.links[0].queue = [])
    ∧ (∃ s : State, s.links[0].state = .holdover ∧ s.links[0].missed = 30)
    ∧ (∃ s : State, s.links[0].state = .holdover ∧ s.links[0].missed = 31)
    ∧ ∃ s : State, s.links[0].state = .down :=
  ⟨⟨withLink { resetLink with state := .locked, queue := [⟨0, 1, false, silence⟩] }, ⟨0, 1, false, silence⟩, [],
    by decide⟩,
   ⟨withLink { resetLink with state := .locked }, by decide⟩,
   ⟨withLink { resetLink with state := .holdover, missed := 30 }, by decide⟩,
   ⟨withLink { resetLink with state := .holdover, missed := 31 }, by decide⟩, ready, by decide⟩

theorem witness_EveryStepKeepsLinksAndGains :
    (∃ s t, LinksKept s ∧ s.links[0].state = .locked ∧ step s = .next t)
    ∧ ∃ s t, GainKept s ∧ s.gain.levels[0].ramp ≠ none ∧ step s = .next t := by
  let s1 : State := withLink { resetLink with state := .locked, acquisition := 8 }
  let s2 : State := { ready with gain := { resetGain with
    levels := update resetGain.levels 0 fun m => { m with ramp := some ⟨0, 5, 2, 1⟩ } } }
  obtain ⟨t1, h1⟩ := step_withCommand s1
  obtain ⟨t2, h2⟩ := step_withCommand s2
  refine ⟨⟨withCommand s1, t1, ?_, by decide, h1⟩, withCommand s2, t2, ⟨?_, ?_⟩, by decide, h2⟩
  · intro n
    by_cases h : n = 0
    · subst h; exact ⟨by decide, by decide, by decide, by decide⟩
    · have : (withCommand s1).links[n] = resetLink := by
        simp [withCommand, s1, withLink, ready, State.reset, update,
          show ¬0 = n.val from fun e => h (Fin.ext e.symm)]
      rw [this]
      exact ⟨by decide, rfl, rfl, rfl, rfl⟩
  · simp only [LawKept]; decide +kernel
  · intro n
    refine ⟨?_, ?_, ?_, ?_⟩
    · revert n; decide
    · revert n; decide
    · revert n; decide
    · intro r hr
      by_cases h : n = 0
      · subst h
        cases hr
        decide
      · have : (withCommand s2).gain.levels[n] = resetLevel := by
          simp [withCommand, s2, resetGain, update,
            show ¬0 = n.val from fun e => h (Fin.ext e.symm)]
        rw [this] at hr
        cases hr

theorem witness_PeriodsStartInRotation :
    (∃ s, Running s ∧ s.engine.service ≠ none) ∧ (∃ s, Running s ∧ ∀ n : Fin 8, waiting s n = false)
    ∧ (∃ s, ∃ n : Fin 8, Running s ∧ AccountsKept s ∧ s.engine.service = none ∧ waiting s n = true
        ∧ (∀ m : Fin 8, waiting s m = true → (n - s.engine.lastServed - 1).val ≤ (m - s.engine.lastServed - 1).val)
        ∧ s.screens[n].owed = 1)
    -- a skipped period that takes from its link
    ∧ (∀ fallback : Bool, ∃ s, Running s ∧ AccountsKept s ∧ s.engine.service = none ∧ waiting s 0 = true
        ∧ (∀ m : Fin 8, waiting s m = true → ((0 : Fin 8) - s.engine.lastServed - 1).val
            ≤ (m - s.engine.lastServed - 1).val)
        ∧ s.screens[0].owed = 1 ∧ s.screens[0].state = (if fallback then .fallback else .playing)
        ∧ s.screens[0].notedLink = .locked ∧ ∃ q, (takeInput 0 s).2.packet = some q)
    ∧ (∀ st : ScreenState, st ≠ .off → ∃ s, ∃ n : Fin 8, Running s ∧ AccountsKept s ∧ s.engine.service = none
        ∧ waiting s n = true
        ∧ (∀ m : Fin 8, waiting s m = true → (n - s.engine.lastServed - 1).val ≤ (m - s.engine.lastServed - 1).val)
        ∧ s.screens[n].owed = 0 ∧ s.screens[n].state = st)
    ∧ (∃ s, Running s ∧ s.engine.service = none ∧ waiting s 0 = true ∧ s.screens[0].owed = 0
        ∧ (∀ m : Fin 8, waiting s m = true → ((0 : Fin 8) - s.engine.lastServed - 1).val
            ≤ (m - s.engine.lastServed - 1).val)
        ∧ s.screens[0].state = .playing ∧ s.decoder[0].profile.mode = .matrix ∧ IsDec s.decoder[0].profile.table[15]
        ∧ ∃ q, (takeInput 0 s).2.packet = some q)
    ∧ ∃ s b, Running s ∧ s.engine.service = none ∧ waiting s 0 = true ∧ s.screens[0].owed = 0
        ∧ (∀ m : Fin 8, waiting s m = true → ((0 : Fin 8) - s.engine.lastServed - 1).val
            ≤ (m - s.engine.lastServed - 1).val)
        ∧ s.screens[0].state = .fallback ∧ s.screens[0].notedLink = .locked ∧ IsDec s.decoder[0].profile.table[15]
        ∧ s.engine.backup.getLast? = some b := by
  let due (st : ScreenState) (link : LinkState) : State :=
    withContext { inState st link with queue := [silentBlock], outstanding := 1 }
  let matrix : Profile := { resetProfile with mode := .matrix, table := update resetProfile.table 15 fun _ => .decC }
  let owing (fallback : Bool) : State :=
    withContext { inState (if fallback then .fallback else .playing) .locked with queue := [], outstanding := 3, owed := 1 }
  let decoding (s : State) : State := { s with decoder := update s.decoder 0 fun d => { d with profile := matrix } }
  refine ⟨⟨serving .done, by decide⟩, ⟨ready, by decide⟩,
    ⟨withContext { inState .ready .down with queue := [], outstanding := 3, owed := 1 }, 0, by decide, ?_, by decide⟩,
    fun fallback => ⟨{ owing fallback with
        links := update ready.links 0 fun l => { l with state := .locked, queue := [⟨0, 1, false, silence⟩] } },
      ?_, ?_, ?_, ?_, ?_, ?_, ?_, ?_, ⟨0, 1, false, silence⟩, ?_⟩,
    ?_,
    ⟨{ decoding (due .playing .locked) with
        links := update ready.links 0 fun l => { l with state := .locked, queue := [⟨0, 1, false, silence⟩] } },
      by decide, by decide, by decide, by decide, by decide, by decide, by decide, .inr (.inr (.inl (by decide))),
      ⟨0, 1, false, silence⟩, by decide⟩,
    { decoding (due .fallback .locked) with engine := { resetEngine with backup := [List.replicate 48 (1, 2)] } },
    List.replicate 48 (1, 2), by decide, by decide, by decide, by decide, by decide, by decide, by decide,
    .inr (.inr (.inl (by decide))), rfl⟩
  · simp only [AccountsKept, AccountKept]; decide
  · cases fallback <;> decide
  · simp only [AccountsKept, AccountKept]; cases fallback <;> decide
  iterate 7 exact by cases fallback <;> decide
  · intro st h
    cases st with
    | off => exact absurd rfl h
    | ready => exact ⟨due .ready .down, 0, by decide, by simp only [AccountsKept, AccountKept]; decide, by decide⟩
    | playing => exact ⟨due .playing .locked, 0, by decide, by simp only [AccountsKept, AccountKept]; decide, by decide⟩
    | fallback => exact ⟨due .fallback .down, 0, by decide, by simp only [AccountsKept, AccountKept]; decide, by decide⟩

theorem witness_PeriodEndPlacesItsBlock :
    (∃ s v, Running s ∧ s.engine.service = some v ∧ ∃ c : Fin 16, v.channels[c].stage ≠ .done)
    ∧ (∃ s v, Running s ∧ s.engine.service = some v ∧ (∀ c : Fin 16, v.channels[c].stage = .done)
        ∧ (s.engine.channels[v.screen][15]).clip = true ∧ (s.meter.watches[v.screen][31]).kind = .silence
        ∧ s.screens[v.screen].offPending = false ∧ s.screens[v.screen].owed = 0)
    ∧ (∃ s v, Running s ∧ s.engine.service = some v ∧ (∀ c : Fin 16, v.channels[c].stage = .done)
        ∧ s.screens[v.screen].offPending = false ∧ s.screens[v.screen].owed = 1)
    ∧ ∃ s v, Running s ∧ s.engine.service = some v ∧ (∀ c : Fin 16, v.channels[c].stage = .done)
        ∧ s.screens[v.screen].offPending = true := by
  let marked : Engine := { (serving .done).engine with
    channels := Vector.replicate 8 (Vector.replicate 16 { resetChannel with clip := true }) }
  let watched : MeterUnit := { resetMeterUnit with
    watches := Vector.replicate 8 (Vector.replicate 32 { resetWatch with kind := .silence }) }
  refine ⟨⟨serving .write, serviceOf .write, by decide, rfl, 0, by decide⟩,
    ⟨{ serving .done with engine := marked, meter := watched }, serviceOf .done, by decide⟩,
    ⟨{ withContext { inState .playing .locked with queue := [], outstanding := 3, owed := 1 } with
        engine := (serving .done).engine }, serviceOf .done, by decide⟩,
    { withContext { inState .playing .locked with queue := [silentBlock], outstanding := 1, offPending := true } with
        engine := (serving .done).engine }, serviceOf .done, by decide⟩

theorem witness_EngineStagesStayInRange :
    (∃ y : Int, y ∈ (runSection emptySection restHistory [1]).1) ∧ (∃ i : Nat, i < 48)
    ∧ (∃ (f : Section) (xs : Samples), f.b0 = 16777216 ∧ f.b1 = 0 ∧ f.b2 = 0 ∧ f.a1 = 0 ∧ f.a2 = 0 ∧ xs ≠ []
        ∧ ∀ x ∈ xs, -134217728 ≤ x ∧ x ≤ 134217727)
    ∧ (∀ inUse, ∃ (r : ChannelRecord) (k : Fin 12), r.sections[k].inUse = inUse)
    ∧ (∃ (d : Nat) (ch : ChannelState), ch.target = none ∧ d = ch.delayInUse)
    ∧ (∃ (d : Nat) (ch : ChannelState), ch.target = none ∧ d ≠ ch.delayInUse)
    ∧ (∃ (d : Nat) (ch : ChannelState), ch.target = some d)
    ∧ (∃ (d t : Nat) (ch : ChannelState), ch.target = some t ∧ d ≠ t ∧ d = ch.delayInUse)
    ∧ (∃ (d t : Nat) (ch : ChannelState), ch.target = some t ∧ d ≠ t ∧ d ≠ ch.delayInUse)
    ∧ ∃ st : Steering, -64 ≤ st.lr ∧ st.lr ≤ 64 ∧ -64 ≤ st.fb ∧ st.fb ≤ 64 :=
  ⟨⟨0, by decide⟩, ⟨47, by decide⟩, ⟨{ emptySection with b0 := 16777216 }, [-134217728, 134217727], by decide⟩,
   fun u => ⟨{ emptyChannel with sections := Vector.replicate 12 { emptySection with inUse := u } }, 11, by cases u <;> decide⟩,
   ⟨0, resetChannel, by decide⟩, ⟨96, resetChannel, by decide⟩,
   ⟨96, { resetChannel with target := some 96 }, by decide⟩, ⟨0, 96, { resetChannel with target := some 96 }, by decide⟩,
   ⟨48, 96, { resetChannel with target := some 96 }, by decide⟩, resetSteering, by decide⟩

theorem witness_EveryStepKeepsOutputsInRange :
    ∃ s t, OutputsInRange s ∧ s.screens[0].queue ≠ [] ∧ step s = .next t := by
  obtain ⟨t, ht⟩ := step_withCommand playing
  have hb : OutputBlock silentBlock := by
    simp only [OutputBlock, OutputSamples]; decide +kernel
  refine ⟨withCommand playing, t, ⟨?_, ?_, by decide, by decide⟩, by decide, ht⟩
  · intro n
    by_cases h : n = 0
    · subst h
      refine ⟨hb, fun b hm => ?_⟩
      have : b = silentBlock := by
        simpa [withCommand, playing, withContext, inState, update] using hm
      rw [this]; exact hb
    · have : (withCommand playing).screens[n] = resetContext := by
        simp [withCommand, playing, withContext, ready, State.reset, update,
          show ¬0 = n.val from fun e => h (Fin.ext e.symm)]
      rw [this]
      exact ⟨hb, by intro b hm; cases hm⟩
  · intro v h; cases h

theorem witness_ProfileChangesTakeEffectOrAreStaged :
    (∃ s, ∃ (n : Fin 8) (lt rt : Fin 16) (tag : Nat), Running s ∧ tag ≤ 255 ∧ tag = 255 ∧ lt ≠ rt
      ∧ s.screens[n].state = .off ∧ s.decoder[n].profile.mode ≠ .matrix)
    ∧ (∃ s, ∃ (n : Fin 8) (lt rt : Fin 16), Running s ∧ lt ≠ rt ∧ s.screens[n].state = .off
        ∧ s.decoder[n].profile.mode = .matrix ∧ s.decoder[n].profile.lt = lt ∧ s.decoder[n].profile.rt = rt)
    ∧ (∃ s, ∃ (n : Fin 8) (lt rt : Fin 16), Running s ∧ lt ≠ rt ∧ s.screens[n].state ≠ .off)
    ∧ (∃ tag mode lt rt auto : Nat,
        tag = 256 ∧ (255 < tag ∨ 1 < mode ∨ 16 ≤ lt ∨ 16 ≤ rt ∨ lt = rt ∨ 1 < auto))
    ∧ (∀ link, SelectorCode 0 link .silent) ∧ SelectorCode 1 15 (.link 15) ∧ (∀ link, SelectorCode 5 link .decS)
    ∧ ∃ c selector link : Nat, 16 ≤ c ∨ 5 < selector ∨ selector = 1 ∧ 16 ≤ link :=
  ⟨⟨ready, 0, 0, 1, 255, by decide⟩,
   ⟨{ ready with decoder :=
      Vector.replicate 8 { resetDecoder with profile := { resetProfile with mode := .matrix } } }, 0, 0, 1, by decide⟩,
   ⟨playing, 0, 0, 15, by decide⟩, ⟨256, 0, 0, 1, 0, by decide⟩, fun _ => .inl ⟨rfl, rfl⟩,
   .inr (.inl ⟨15, rfl, rfl, rfl⟩), fun _ => by simp [SelectorCode], 16, 0, 0, by decide⟩

theorem witness_FaderAndMuteRequests :
    (∃ s, Running s ∧ s.screens[0].state = .off)
    ∧ ∃ (s : State) (length : Nat), Running s ∧ 0 < length ∧ s.screens[0].state ≠ .off :=
  ⟨⟨ready, by decide⟩, playing, 60000, by decide⟩

theorem witness_FaderLawIsReplacedWhole :
    (∃ entries : List Nat, entries.length = 101 ∧ ∃ e ∈ entries, 1048576 < e)
    ∧ (∃ entries : List Nat, entries.length = 101 ∧ (∀ e ∈ entries, e ≤ 1048576)
        ∧ ∃ k a b, entries[k]? = some a ∧ entries[k + 1]? = some b ∧ b < a)
    ∧ ∃ entries : List Nat, entries.length = 101 ∧ (∀ e ∈ entries, e ≤ 1048576)
        ∧ ∀ k a b, entries[k]? = some a → entries[k + 1]? = some b → a ≤ b := by
  refine ⟨⟨List.replicate 101 1048577, by decide⟩, ⟨1 :: List.replicate 100 0, by decide, by decide, 0, 1, 0, by decide⟩,
    List.replicate 101 1048576, by decide, by decide, ?_⟩
  intro k a b ha hb
  have h1 := List.mem_of_getElem? ha
  have h2 := List.mem_of_getElem? hb
  simp at h1 h2
  omega

theorem witness_OpenDraftCreatesADraft :
    (∃ origin : Nat, ∀ slot : Nat, ¬(origin = 1 ∨ origin = 2 ∨ origin = 3 ∧ slot < 48))
    ∧ (∃ s d, Running s ∧ s.bank.drafts[0] = some d ∧ heldBy .B d = false)
    ∧ (∃ s d, Running s ∧ s.bank.drafts[0] = some d ∧ heldBy .A d = true ∧ d.state = .committing)
    ∧ (∃ s, Running s ∧ s.memory.state = .initialising
        ∧ ∀ d, s.bank.drafts[0] = some d → heldBy .A d = true ∧ d.state ≠ .committing)
    ∧ (∀ st : SlotState, ∀ q : Nat, q = 3 ∨ q = 4 → ∃ s, ∃ k : Fin 48, Running s ∧ s.memory.state = .ready
        ∧ s.library.slots[k].state = st ∧ EntriesCounted 0 s q
        ∧ ∀ d, s.bank.drafts[0] = some d → heldBy .A d = true ∧ d.state = .editable)
    ∧ (∃ s, Running s ∧ ∀ d, s.bank.drafts[0] = some d → heldBy .A d = true ∧ d.state = .editable)
    ∧ (∃ s d before e after, Running s ∧ s.bank.drafts[0] = some d ∧ heldBy .A d = true ∧ d.state = .loading
        ∧ IsDraftsLoad 0 s before e after ∧ before ≠ [] ∧ EntriesCounted 0 s 3 ∧ s.library.queue.length = 4)
    ∧ ∃ s d before e after, Running s ∧ s.bank.drafts[0] = some d ∧ heldBy .A d = true ∧ d.state = .loading
        ∧ IsDraftsLoad 0 s before e after ∧ before = [] ∧ s.library.progress ≠ none ∧ BurstLive s := by
  refine ⟨⟨0, by simp⟩, ⟨withDraft (draftIn .editable), draftIn .editable, by decide⟩,
    ⟨withDraft (draftIn .committing), draftIn .committing, by decide⟩,
    ⟨State.reset, rfl, rfl, by intro d h; cases h⟩, ?_,
    ⟨withDraft (draftIn .editable), rfl, by intro d h; cases h; decide⟩,
    ⟨loadingDraft [saveEntry, saveEntry, saveEntry, loadEntry] (some 0) .none, draftIn .loading,
      [saveEntry, saveEntry, saveEntry], loadEntry, [], rfl, rfl, rfl, rfl, loadEntry_loads _ _ _ rfl (by decide),
      by decide, .inr ⟨by decide, [saveEntry, saveEntry, saveEntry], loadEntry, [],
        loadEntry_loads _ _ _ rfl (by decide), rfl⟩, rfl⟩,
    loadingDraft [loadEntry] (some 4) (.burst ⟨47, 5, false⟩ [] true), draftIn .loading, [], loadEntry, [], rfl, rfl, rfl,
    rfl, loadEntry_loads _ _ _ rfl (by simp), rfl, by decide, ⟨47, 5, false⟩, [], rfl⟩
  intro st q hq
  refine ⟨{ withDraft (draftIn .editable) with library := { resetLibrary with
    queue := List.replicate q saveEntry, slots := Vector.replicate 48 { emptySlot with state := st } } }, 47, rfl, rfl, ?_,
    .inl ⟨?_, ?_⟩, by intro d h; cases h; decide⟩
  · simp
  · show (List.replicate q saveEntry).countP (servesDraft 0) = 0
    rcases hq with rfl | rfl <;> decide
  · simp

theorem witness_DraftEditsAndAbandon :
    (∃ s d, Running s ∧ s.bank.drafts[0] = some d ∧ heldBy .C d = false)
    ∧ (∀ st : DraftState, ∃ s d, Running s ∧ s.bank.drafts[0] = some d ∧ heldBy .A d = true ∧ d.state = st)
    ∧ (∃ s d b, Running s ∧ s.bank.drafts[0] = some d ∧ heldBy .A d = true ∧ d.state = .editable
        ∧ d.content = some b)
    ∧ (∃ s d before e after, Running s ∧ s.bank.drafts[0] = some d ∧ heldBy .A d = true ∧ d.state = .loading
        ∧ IsDraftsLoad 0 s before e after)
    ∧ SectionInRange { inUse := true, b0 := -134217728, b1 := 134217727, b2 := 0, a1 := 0, a2 := 0 }
    ∧ (∃ x ∈ [(134217728 : Int), 0, 0, 0, 0], x < -134217728 ∨ 134217727 < x)
    ∧ (∃ c invert : Nat, (16 ≤ c ∨ 1 < invert) ∧ c = 15 ∧ invert = 2)
    ∧ ∃ s, Running s ∧ s.bank.drafts[0] = none := by
  refine ⟨⟨withDraft (draftIn .editable), draftIn .editable, by decide⟩,
    fun st => ⟨withDraft (draftIn st), draftIn st, rfl, rfl, rfl, rfl⟩,
    ⟨withDraft (draftIn .editable), draftIn .editable, emptyBank, by decide +kernel⟩,
    ⟨loadingDraft [loadEntry] none .none, draftIn .loading, [], loadEntry, [], rfl, rfl, rfl, rfl,
      loadEntry_loads _ _ _ rfl (by simp)⟩, ?_, by decide, ⟨15, 2, by decide⟩, ready, by decide⟩
  simp only [SectionInRange]; decide

theorem witness_CommitSwapsOnlyStableBanks :
    (∃ s d b, Running s ∧ s.bank.drafts[0] = some d ∧ heldBy .A d = true ∧ d.state = .editable ∧ d.content = some b
      ∧ BankStable b ∧ s.screens[0].state = .off)
    ∧ (∃ s d b, Running s ∧ s.bank.drafts[0] = some d ∧ heldBy .A d = true ∧ d.state = .editable ∧ d.content = some b
      ∧ BankStable b ∧ s.screens[0].state ≠ .off)
    ∧ ∃ s d b, Running s ∧ s.bank.drafts[0] = some d ∧ heldBy .A d = true ∧ d.state = .editable ∧ d.content = some b
      ∧ ¬BankStable b := by
  have hs : BankStable emptyBank := by simp only [BankStable]; decide +kernel
  have hu : ¬BankStable unstableBank := fun h => absurd (h 3 5 (by decide +kernel)).1 (by decide +kernel)
  exact ⟨⟨withDraft (draftIn .editable), draftIn .editable, emptyBank, rfl, rfl, rfl, rfl, rfl, hs, rfl⟩,
    ⟨{ withDraft (draftIn .editable) with screens := playing.screens }, draftIn .editable, emptyBank, rfl, rfl, rfl, rfl,
      rfl, hs, by decide⟩,
    withDraft { draftIn .editable with content := some unstableBank },
    { draftIn .editable with content := some unstableBank }, unstableBank, rfl, rfl, rfl, rfl, rfl, hu⟩

theorem witness_EveryStepKeepsTheBanksStable :
    ∃ s t, (BanksKept s ∧ StagedKept s) ∧ s.screens[0].swapMark = true ∧ step s = .next t := by
  let s1 : State := { withDraft (draftIn .committing) with
    screens := (withContext { inState .playing .locked with swapMark := true }).screens }
  obtain ⟨t, ht⟩ := step_withCommand s1
  have hr : BankInRange emptyBank := by
    simp only [BankInRange, RecordInRange, SectionInRange]; decide +kernel
  have hs : BankStable emptyBank := by simp only [BankStable]; decide +kernel
  have hb : ∀ n : Fin 8, (withCommand s1).bank.banks[n] = emptyBank := by
    intro n; simp [withCommand, s1, withDraft, resetBank]
  have hd : ∀ (n : Fin 8) d, (withCommand s1).bank.drafts[n] = some d → n = 0 ∧ d = draftIn .committing := by
    intro n d h
    by_cases hn : n = 0
    · subst hn; cases h; exact ⟨rfl, rfl⟩
    · have : (withCommand s1).bank.drafts[n] = none := by
        simp [withCommand, s1, withDraft, resetBank, update,
          show ¬0 = n.val from fun e => hn (Fin.ext e.symm)]
      rw [this] at h; cases h
  refine ⟨withCommand s1, t, ⟨?_, ?_⟩, by decide, ht⟩
  · intro n
    refine ⟨by rw [hb]; exact hr, by rw [hb]; exact hs, fun d h => ?_⟩
    obtain ⟨rfl, rfl⟩ := hd n d h
    refine ⟨by decide, fun b h => ?_⟩
    cases h
    exact ⟨hr, fun _ => hs⟩
  · intro n
    refine ⟨⟨?_, ?_⟩, ?_, ?_⟩
    · intro h
      by_cases hn : n = 0
      · subst hn; exact ⟨draftIn .committing, rfl, rfl⟩
      · revert hn h; revert n; decide
    · rintro ⟨d, h, -⟩
      obtain ⟨rfl, -⟩ := hd n d h
      decide
    · revert n; decide
    · revert n; decide

theorem witness_MeterAndAlarmConfiguration :
    (∃ s, ∃ (threshold hold : Nat), Running s ∧ threshold = 8388608 ∧ hold = 1 ∧ (s.meter.watches[0][31]).raised = true)
    ∧ (∃ s, Running s ∧ (s.meter.watches[0][31]).raised = false)
    ∧ (∃ i kind threshold hold action : Nat,
        i = 31 ∧ (32 ≤ i ∨ 2 < kind ∨ 8388608 < threshold ∨ hold = 0 ∨ 2 < action))
    ∧ (∃ row : Fin 14, row.val + 1 = alarmKindCode .linkLost ∧ MapActionAllowed .linkLost .fallback
        ∧ MapActionAllowed .linkLost .holdCues)
    ∧ (∃ row : Fin 14, row.val + 1 = alarmKindCode .relayFault ∧ MapActionAllowed .relayFault .none
        ∧ ¬MapActionAllowed .relayFault .fallback ∧ ¬MapActionAllowed .relayFault .holdCues)
    ∧ (∃ row : Fin 14, row.val + 1 = alarmKindCode .silence ∧ ¬MapActionAllowed .silence .holdCues)
    ∧ (∃ kind severity action : Nat, kind = 14 ∧ severity = 3 ∧ action = 3
        ∧ (kind = 0 ∨ 14 < kind ∨ severity = 0 ∨ 3 < severity ∨ 2 < action))
    ∧ (∃ severity mask : Nat, severity = 3 ∧ mask = 8 ∧ (severity = 0 ∨ 3 < severity ∨ 7 < mask))
    ∧ (∃ severity : Nat, severity = 4 ∧ (severity = 0 ∨ 3 < severity))
    ∧ ∃ line mode threshold mask follow : Nat, line = 3 ∧ mask = 512
        ∧ (3 < line ∨ 2 < mode ∨ threshold = 0 ∨ 3 < threshold ∨ 511 < mask ∨ 1 < follow) := by
  refine ⟨⟨{ ready with meter := { resetMeterUnit with
      watches := Vector.replicate 8 (Vector.replicate 32 { resetWatch with kind := .silence, raised := true }) } },
    8388608, 1, by decide⟩, ⟨ready, by decide⟩, ⟨31, 0, 8388609, 1, 0, by decide⟩, ⟨3, ?_⟩, ⟨11, ?_⟩, ⟨0, ?_⟩,
    ⟨14, 3, 3, by decide⟩, ⟨3, 8, by decide⟩, ⟨4, by decide⟩, 3, 0, 1, 512, 0, by decide⟩
  all_goals simp only [MapActionAllowed]; decide

theorem witness_RaisesAreRecorded :
    (∃ s, ∃ r : AlarmReport, ∃ before after, Running s ∧ r.raise = true ∧ s.mail.alarms = before ++ r :: after
      ∧ (∀ x ∈ before, x.id ≠ r.id ∧ mustPrecede x r = false) ∧ r.id.scope = .screen 0
      ∧ s.alarm.snapshots[0] = none ∧ (∀ x ∈ s.alarm.active, x.id ≠ r.id)
      ∧ severityCode s.alarm.snapshotLevel ≤ severityCode .critical)
    ∧ (∃ s, ∃ r : AlarmReport, ∃ before after, Running s ∧ r.raise = true ∧ s.mail.alarms = before ++ r :: after
      ∧ (∀ x ∈ before, x.id ≠ r.id ∧ mustPrecede x r = false) ∧ r.id.scope = .screen 0 ∧ s.alarm.log.length = 64
      ∧ severityCode (s.alarm.kindMap[kindRow r.id.kind]).severity < severityCode s.alarm.snapshotLevel)
    ∧ ∃ s, ∃ r : AlarmReport, ∃ before after x, Running s ∧ r.raise = true ∧ s.mail.alarms = before ++ r :: after
      ∧ (∀ x ∈ before, x.id ≠ r.id ∧ mustPrecede x r = false) ∧ r.id.scope = .device
      ∧ s.alarm.active.find? (fun x => x.id = r.id) = some x := by
  let full : AlarmHandler := { resetAlarm with
    log := List.replicate 64 { sequence := 0, period := 0, id := lostId, severity := .notice, raised := true } }
  let clipId : AlarmId := { kind := .clip, scope := .screen 0, index := 15 }
  exact ⟨⟨withMail { noMail with alarms := [raiseOf faultId, raiseOf lostId] }, raiseOf lostId, [raiseOf faultId], [],
      by decide⟩,
    ⟨{ withMail { noMail with alarms := [raiseOf clipId] } with alarm := full }, raiseOf clipId, [], [], by decide⟩,
    withActive (withMail { noMail with alarms := [raiseOf faultId] }) (activeOf faultId true false), raiseOf faultId, [],
    [], activeOf faultId true false, by decide⟩

/-- The active set of one entry is in form. -/
theorem one_entry_kept (s : State) (present acknowledged : Bool) (h : acknowledged = true → present = true)
    (hl : s.alarm.log = []) : AlarmsKept (withActive s (activeOf lostId present acknowledged)) := by
  have hlog : (withActive s (activeOf lostId present acknowledged)).alarm.log = [] := hl
  refine ⟨by simp [withActive], ?_, ?_, ?_⟩
  · intro e he
    have : e = activeOf lostId present acknowledged := by simpa [withActive] using he
    subst this
    exact ⟨h, Nat.le_refl 1, (by decide : 1 ≤ 255), fun _ => rfl⟩
  · rw [hlog]; decide
  · intro i e he; rw [hlog] at he; cases he

theorem witness_AbsencesAndAcknowledgements :
    (∃ s, ∃ r : AlarmReport, ∃ before after, Running s ∧ r.raise = false ∧ s.mail.alarms = before ++ r :: after
      ∧ (∀ x ∈ before, x.id ≠ r.id ∧ mustPrecede x r = false) ∧ AlarmsKept s
      ∧ ∀ x ∈ s.alarm.active, x.id = r.id → x.present = false)
    ∧ (∃ s, ∃ r : AlarmReport, ∃ before after, Running s ∧ r.raise = false ∧ s.mail.alarms = before ++ r :: after
      ∧ (∀ x ∈ before, x.id ≠ r.id ∧ mustPrecede x r = false) ∧ AlarmsKept s
      ∧ ∃ e ∈ s.alarm.active, e.id = r.id ∧ e.present = true ∧ e.acknowledged = true)
    ∧ (∃ kind scope index, kind ≠ 255 ∧ identityOf kind scope index = none)
    ∧ (∃ s kind scope index id, Running s ∧ kind ≠ 255 ∧ identityOf kind scope index = some id
        ∧ ∀ e ∈ s.alarm.active, e.id ≠ id)
    ∧ ∃ s kind scope index id, Running s ∧ kind ≠ 255 ∧ identityOf kind scope index = some id
        ∧ ∃ e ∈ s.alarm.active, e.id = id :=
  ⟨⟨withActive (withMail { noMail with alarms := [absenceOf lostId] }) (activeOf lostId false false), absenceOf lostId,
    [], [], by decide, rfl, rfl, by simp, one_entry_kept _ _ _ (by simp) rfl, by decide⟩,
   ⟨withActive (withMail { noMail with alarms := [absenceOf lostId] }) (activeOf lostId true true), absenceOf lostId,
    [], [], by decide, rfl, rfl, by simp, one_entry_kept _ _ _ (by simp) rfl, activeOf lostId true true, by decide⟩,
   ⟨12, 255, 8, by decide⟩, ⟨ready, 12, 255, 7, ⟨.relayFault, .device, 7⟩, by decide⟩,
   withActive ready (activeOf lostId true false), 4, 0, 0, lostId, by decide⟩

theorem witness_ScheduleRequests :
    (∃ (raw : RawAction), ∀ act clamped, ¬ActionNamed raw act clamped)
    ∧ ActionNamed (.relay 7 1 1) (.relay 7 1 1) false ∧ ActionNamed (.line 7 (.level 1)) (.line 7 (.level true)) false
    ∧ ActionNamed (.line 0 (.pulse 1)) (.line 0 (.pulse 1)) false ∧ ActionNamed (.fade 101 60000) (.fade 100 60000) true
    ∧ ActionNamed (.fade 100 60000) (.fade 100 60000) false ∧ ActionNamed .mute .mute false
    ∧ ActionNamed .unmute .unmute false ∧ ActionNamed (.format 1) (.format .matrix) false
    ∧ ActionNamed (.eqSelect 47) (.eqSelect 47) false ∧ ActionNamed .mark .mark false
    ∧ (∃ (s : State) (id : Nat), Running s ∧ id = 1 ∧ ∃ c ∈ s.cue.pool, c.screen = 0 ∧ c.id = id)
    ∧ (∃ (s : State) (id : Nat), Running s ∧ 1 ≤ id ∧ (∀ c ∈ s.cue.pool, ¬(c.screen = 0 ∧ c.id = id))
        ∧ s.cue.pool.length = 256)
    ∧ (∃ (s : State) (id : Nat), Running s ∧ 1 ≤ id ∧ (∀ c ∈ s.cue.pool, ¬(c.screen = 0 ∧ c.id = id))
        ∧ s.cue.pool.length < 256)
    ∧ ∃ len : Nat, len = 1 ∧ 1 ≤ len :=
  ⟨⟨.other 9, fun _ _ h => h⟩, ⟨rfl, 7, rfl, rfl⟩, ⟨rfl, 7, rfl, .inr ⟨rfl, rfl⟩⟩, ⟨rfl, by decide, 0, rfl, rfl⟩,
   ⟨by decide, rfl⟩, ⟨by decide, rfl⟩, ⟨rfl, rfl⟩, ⟨rfl, rfl⟩, ⟨rfl, .inr ⟨rfl, rfl⟩⟩, ⟨rfl, 47, rfl, rfl⟩, ⟨rfl, rfl⟩,
   ⟨withCue markCue, 1, by decide⟩,
   ⟨{ ready with cue := { resetCues with pool := List.replicate 256 { markCue with screen := 1 } } }, 1,
    by decide +kernel⟩,
   ⟨withCue markCue, 2, by decide⟩, 1, by decide⟩

theorem one_cue_kept (s : State) (c : Cue) (h : s.cue.pool = [c]) : CuesKept s := by
  simp [CuesKept, h]

theorem witness_AdvancesTakeCues :
    (∃ s, Running s ∧ s.mail.advances ≠ [] ∧ EventsComing 0 s)
    ∧ (∃ s, ∃ before after, Running s ∧ s.mail.holds = before ++ { screen := 0, ofCue := true } :: after
        ∧ ∀ x ∈ before, x.screen ≠ 0)
    ∧ (∀ enable : Bool, ∀ kind : AdvanceKind, ∃ s, ∃ a : Advance, ∃ before after, Running s
      ∧ s.mail.advances = before ++ a :: after ∧ (∀ x ∈ before, x.screen ≠ a.screen)
      ∧ s.cue.schedules[a.screen].enable = enable ∧ CuesKept s ∧ ¬EventsComing a.screen s ∧ a.kind = kind
      ∧ ∃ c ∈ s.cue.pool, taken a s.cue.schedules[a.screen].lastEnd c = true ∧ (c.position - a.first).toNat = 47)
    ∧ (∀ enable : Bool, ∃ s, ∃ a : Advance, ∃ before after, Running s ∧ s.mail.advances = before ++ a :: after
      ∧ (∀ x ∈ before, x.screen ≠ a.screen) ∧ s.cue.schedules[a.screen].enable = enable ∧ CuesKept s
      ∧ ¬EventsComing a.screen s ∧ a.kind = .jumpForward ∧ ∃ c ∈ s.cue.pool, takenPassing a s.cue.schedules[a.screen].lastEnd c = true)
    ∧ (∃ (c : Cue) (s : State) (e : Fin 8), c.action = .relay e 1 1 ∧ s.relay.expanders[e].present = true)
    ∧ (∃ (c : Cue) (s : State) (e : Fin 8), c.action = .relay e 1 1 ∧ s.relay.expanders[e].present = false)
    -- FORMAT DISCRETE or MATRIX on a screen whose mode is DISCRETE, with nothing staged and with either mode staged
    ∧ (∀ (m : DecodeMode) (staged : Option DecodeMode) (st : ScreenState), ∃ (c : Cue) (s : State), c.action = .format m
        ∧ s.screens[c.screen].state = st ∧ s.decoder[c.screen].profile.mode = .discrete
        ∧ s.decoder[c.screen].staged.map Profile.mode = staged)
    ∧ (∃ (c : Cue) (s : State) (k : Fin 101), c.action = .fade 101 60001 ∧ k.val = min 101 100
        ∧ s.screens[c.screen].state ≠ .off)
    ∧ (∃ (c : Cue) (s : State) (d : Draft) (k : Fin 48) (p : Port) (touch : Word), c.action = .eqSelect k
        ∧ s.bank.drafts[c.screen] = some d ∧ d.holder = .port p touch)
    ∧ (∃ (c : Cue) (s : State) (k : Fin 48), c.action = .eqSelect k ∧ s.library.slots[k].state ≠ .valid)
    ∧ (∃ (c : Cue) (s : State) (k : Fin 48), c.action = .eqSelect k ∧ EntriesCounted c.screen s 4)
    ∧ (∃ (c : Cue) (s : State) (k : Fin 48), c.action = .eqSelect k ∧ s.library.slots[k].state = .valid
        ∧ EntriesCounted c.screen s 3 ∧ s.bank.drafts[c.screen] = none)
    ∧ (∃ (c : Cue) (s : State) (k : Fin 48) (d : Draft), c.action = .eqSelect k ∧ s.library.slots[k].state = .valid
        ∧ EntriesCounted c.screen s 0 ∧ s.bank.drafts[c.screen] = some d ∧ d.holder = .cue 7 ∧ d.state = .committing)
    ∧ ∃ (c : Cue) (s : State) (k : Fin 48) (d : Draft), ∃ before e after, c.action = .eqSelect k
        ∧ s.library.slots[k].state = .valid ∧ EntriesCounted c.screen s 0 ∧ s.bank.drafts[c.screen] = some d
        ∧ d.holder = .cue 7 ∧ d.state = .loading ∧ IsDraftsLoad c.screen s before e after := by
  let select : Cue := { markCue with action := .eqSelect 47 }
  let valid (q : List LibraryEntry) (d : Option Draft) : State := { ready with
    library := { resetLibrary with queue := q, slots := Vector.replicate 48 { emptySlot with state := .valid } }
    bank := { resetBank with drafts := update resetBank.drafts 0 fun _ => d } }
  let ofCue (st : DraftState) : Draft := { draftIn st with holder := .cue 7 }
  let schedule (enable : Bool) (c : Cue) : CueScheduler := { resetCues with
    pool := [c], schedules := update resetCues.schedules 0 fun _ => { enable := enable, lastEnd := some 50 } }
  refine ⟨⟨holdOnItsWay [⟨0, 0, .start⟩], rfl, by decide, event_is_coming _⟩,
    ⟨holdOnItsWay [], [], [], rfl, rfl, by simp⟩, fun enable kind => ⟨{ withMail { noMail with advances := [⟨1, 0, .start⟩, ⟨0, 53, kind⟩] } with
        cue := schedule enable markCue }, ⟨0, 53, kind⟩, [⟨1, 0, .start⟩], [], rfl, rfl, by simp, rfl,
        one_cue_kept _ markCue rfl, no_event_is_coming _ 0, rfl, markCue, List.mem_singleton.mpr rfl, by cases kind <;> rfl,
        (by decide : ((100#32) - 53#32).toNat = 47)⟩,
    fun enable => ⟨{ withMail { noMail with advances := [⟨0, 100, .jumpForward⟩] } with
        cue := schedule enable { markCue with position := 99 } }, ⟨0, 100, .jumpForward⟩, [], [], rfl, rfl, by simp, rfl,
        one_cue_kept _ { markCue with position := 99 } rfl, no_event_is_coming _ 0, rfl, { markCue with position := 99 },
        List.mem_singleton.mpr rfl, rfl⟩,
    ⟨{ markCue with action := .relay 0 1 1 }, withRelay (relayIn .idle none), 0, by decide⟩,
    ⟨{ markCue with action := .relay 1 1 1 }, ready, 1, by decide⟩,
    fun m staged st => ⟨{ markCue with action := .format m }, { withContext (inState st .down) with
        decoder := update ready.decoder 0 fun d => { d with staged := staged.map fun x => { resetProfile with mode := x } } },
      rfl, rfl, rfl, by cases staged <;> rfl⟩,
    ⟨{ markCue with action := .fade 101 60001 }, playing, 100, by decide⟩,
    ⟨select, withDraft (draftIn .editable), draftIn .editable, 47, .A, 0, by decide⟩,
    ⟨select, ready, 47, by decide⟩,
    ⟨select, valid (List.replicate 4 saveEntry) none, 47, rfl, .inl ⟨by decide, by decide⟩⟩,
    ⟨select, valid (List.replicate 3 saveEntry) none, 47, rfl, by decide, .inl ⟨by decide, by decide⟩, rfl⟩,
    ⟨select, valid [] (some (ofCue .committing)), 47, ofCue .committing, rfl, by decide, .inl ⟨by decide, by decide⟩, rfl,
      rfl, rfl⟩,
    select, valid [loadEntry] (some (ofCue .loading)), 47, ofCue .loading, [], loadEntry, [], rfl, by decide,
    .inr ⟨by decide, [], loadEntry, [], loadEntry_loads _ _ _ rfl (by simp), rfl⟩, rfl, rfl, rfl,
    loadEntry_loads _ _ _ rfl (by simp)⟩

theorem witness_ReleasesHoldsAndOutcomesSettleCues :
    (∃ s c since, Running s ∧ CuesKept s ∧ c ∈ s.cue.pool ∧ c.screen = 0 ∧ c.state = .held since ∧ c.lateLimit = 2
      ∧ (s.system.housePeriods - since).toNat = 3)
    ∧ (∃ s c since, Running s ∧ CuesKept s ∧ c ∈ s.cue.pool ∧ c.screen = 0 ∧ c.state = .held since ∧ c.lateLimit = 2
      ∧ (s.system.housePeriods - since).toNat = 2)
    ∧ (∃ s, ∃ n : Fin 8, ∃ ofCue before after, Running s
        ∧ s.mail.holds = before ++ { screen := n, ofCue := ofCue } :: after ∧ ∀ x ∈ before, x.screen ≠ n)
    ∧ (∃ s, ∃ o : LoadOutcome, ∃ before after, Running s ∧ s.mail.outcomes = before ++ o :: after
      ∧ (∀ x ∈ before, x.screen ≠ o.screen) ∧ ∀ c ∈ s.cue.pool, ¬(c.screen = o.screen ∧ c.id = o.cue))
    ∧ (∃ s, ∃ o : LoadOutcome, ∃ before after c, Running s ∧ s.mail.outcomes = before ++ o :: after
      ∧ (∀ x ∈ before, x.screen ≠ o.screen) ∧ CuesKept s ∧ c ∈ s.cue.pool ∧ c.screen = o.screen ∧ c.id = o.cue
      ∧ c.state ≠ .fired)
    ∧ ∃ s, ∃ o : LoadOutcome, ∃ before after c k, Running s ∧ s.mail.outcomes = before ++ o :: after
      ∧ (∀ x ∈ before, x.screen ≠ o.screen) ∧ CuesKept s ∧ c ∈ s.cue.pool ∧ c.screen = o.screen ∧ c.id = o.cue
      ∧ c.state = .fired ∧ c.action = .eqSelect k := by
  let late : Cue := { markCue with state := .held 0, lateLimit := 2 }
  let fired : Cue := { markCue with state := .fired, action := .eqSelect 0 }
  let report : Mail := { noMail with outcomes := [⟨0, 1, true⟩] }
  exact ⟨⟨{ withCue late with system := { State.reset.system with housePeriods := 3 } }, late, 0, rfl,
      one_cue_kept _ late rfl, List.mem_singleton.mpr rfl, rfl, rfl, rfl, by decide⟩,
    ⟨{ withCue late with system := { State.reset.system with housePeriods := 2 } }, late, 0, rfl,
      one_cue_kept _ late rfl, List.mem_singleton.mpr rfl, rfl, rfl, rfl, by decide⟩,
    ⟨withMail { noMail with holds := [⟨1, true⟩, ⟨0, false⟩] }, 0, false, [⟨1, true⟩], [], by decide⟩,
    ⟨withMail report, ⟨0, 1, true⟩, [], [], by decide⟩,
    ⟨{ withCue markCue with mail := report }, ⟨0, 1, true⟩, [], [], markCue, rfl, rfl, by simp,
      one_cue_kept _ markCue rfl, List.mem_singleton.mpr rfl, rfl, rfl, by decide⟩,
    { withCue fired with mail := report }, ⟨0, 1, true⟩, [], [], fired, 0, rfl, rfl, by simp,
      one_cue_kept _ fired rfl, List.mem_singleton.mpr rfl, rfl, rfl, rfl, rfl⟩

theorem witness_EveryStepKeepsCuesAndRelays :
    (∃ s t, CuesKept s ∧ s.cue.pool ≠ [] ∧ step s = .next t)
    ∧ (∃ s t, AdvancesKept s ∧ s.mail.advances ≠ [] ∧ s.cue.schedules[0].lastEnd = none ∧ step s = .next t)
    ∧ ∃ s t, RelayKept s ∧ s.relay.flight ≠ none ∧ step s = .next t := by
  let s3 : State := withMail { noMail with advances := [⟨0, 48, .start⟩] }
  obtain ⟨t3, h3⟩ := step_withCommand s3
  obtain ⟨t1, h1⟩ := step_withCommand (withCue markCue)
  let s2 : State := withRelay (relayIn .writeData (some (flightOf true true false 1)))
  obtain ⟨t2, h2⟩ := step_withCommand s2
  refine ⟨⟨withCommand (withCue markCue), t1, one_cue_kept _ markCue rfl, by decide, h1⟩,
    ⟨withCommand s3, t3, ?_, by decide, by decide, h3⟩, withCommand s2, t2, ?_, by decide, h2⟩
  · intro n _
    refine ⟨fun a before after h _ _ => ?_, fun _ => ?_⟩
    · obtain ⟨rfl, rfl, rfl⟩ : before = [] ∧ a = ⟨0, 48, .start⟩ ∧ after = [] := by
        cases before <;> simp_all [withCommand, s3, withMail]
      rfl
    · revert n; decide
  refine ⟨by decide, by decide, by decide, by decide, by decide, by decide, by decide, by decide, by decide, ?_⟩
  intro f hf
  cases hf
  exact ⟨by decide, by decide, by decide, by decide⟩

theorem witness_RelayWriteFoldsOrAppends :
    (∃ s, Running s ∧ s.relay.expanders[0].present = false)
    ∧ (∃ s, ∃ e : Fin 8, Running s ∧ s.relay.expanders[e].present = true ∧ e ∉ s.relay.unstarted)
    ∧ ∃ s, ∃ e : Fin 8, Running s ∧ s.relay.expanders[e].present = true ∧ e ∈ s.relay.unstarted :=
  ⟨⟨ready, by decide⟩, ⟨withRelay (relayIn .idle none), 0, by decide⟩,
   withRelay { relayIn .idle none with unstarted := [0] }, 0, by decide⟩

theorem witness_SetExpanderConfiguresAnEntry :
    (∃ e present address width verify : Nat, address = 120
        ∧ (8 ≤ e ∨ 1 < present ∨ address < 8 ∨ 119 < address ∨ (width ≠ 8 ∧ width ≠ 16) ∨ 1 < verify))
    ∧ (∃ s, ∃ e f : Fin 8, Running s ∧ e ≠ f ∧ s.relay.expanders[f].present = true ∧ s.relay.expanders[f].address = 8)
    ∧ (∃ s, ∃ (e : Fin 8) (f : Flight), Running s ∧ s.relay.flight = some f ∧ f.expander = e
        ∧ ∀ g : Fin 8, g ≠ e → s.relay.expanders[g].present = true → s.relay.expanders[g].address ≠ 119)
    -- every change of an entry that is present, FAULTY and unstarted
    ∧ (∃ s, ∃ e : Fin 8, Running s ∧ (∀ f, s.relay.flight = some f → f.expander ≠ e)
        ∧ (∀ f : Fin 8, f ≠ e → s.relay.expanders[f].present = false) ∧ s.relay.expanders[e].present = true
        ∧ s.relay.expanders[e].state = .faulty ∧ s.relay.expanders[e].wide = true ∧ e ∈ s.relay.unstarted)
    -- every change of an entry that is not present
    ∧ ∃ s, ∃ e : Fin 8, Running s ∧ (∀ f, s.relay.flight = some f → f.expander ≠ e)
        ∧ (∀ f : Fin 8, f ≠ e → s.relay.expanders[f].present = false) ∧ s.relay.expanders[e].present = false :=
  ⟨⟨0, 0, 120, 8, 0, by decide⟩, ⟨withRelay (relayIn .idle none), 1, 0, by decide⟩,
   ⟨withRelay (relayIn .address (some (flightOf false false false 0))), 0, flightOf false false false 0, by decide⟩,
   ⟨withRelay { relayIn .idle none with
      unstarted := [0]
      expanders := update (resetRelay false false).expanders 0 fun x =>
        { x with present := true, wide := true, state := .faulty } }, 0, rfl, (by intro f h; cases h), by decide⟩,
   ready, 7, rfl, (by intro f h; cases h), by decide⟩

theorem witness_RelayTransactionsRunTheirSteps :
    (∃ s e rest, Running s ∧ s.relay.bus = .idle ∧ s.relay.unstarted = e :: rest)
    ∧ (∃ s, Running s ∧ (s.relay.bus ≠ .idle ∨ s.relay.unstarted = []))
    ∧ (∃ s f, Running s ∧ s.relay.bus = .start ∧ LinesFree s.relay ∧ s.relay.flight = some f)
    ∧ (∃ s f, Running s ∧ s.relay.bus = .stop ∧ LinesFree s.relay ∧ s.relay.flight = some f ∧ f.settled = true)
    ∧ (∃ s f, Running s ∧ s.relay.bus = .stop ∧ LinesFree s.relay ∧ s.relay.flight = some f
        ∧ f.settled = false)
    ∧ (∃ s, Running s ∧ s.relay.abandoning = true ∧ s.relay.clockHeld = false)
    ∧ (∃ s, Running s ∧ s.relay.clockHeld = true)
    ∧ ∃ s, Running s ∧ ¬LinesFree s.relay ∧ s.relay.clockHeld = false ∧ s.relay.bus = .start :=
  ⟨⟨withRelay { relayIn .idle none with unstarted := [0] }, 0, [], by decide⟩, ⟨ready, by decide⟩,
   ⟨withRelay (relayIn .start (some (flightOf true true true 0))), flightOf true true true 0, by decide⟩,
   ⟨withRelay (relayIn .stop (some { flightOf true true true 0 with settled := true })),
    { flightOf true true true 0 with settled := true }, by decide⟩,
   ⟨withRelay (relayIn .stop (some (flightOf true true false 2))), flightOf true true false 2, by decide⟩,
   ⟨withRelay { relayIn .idle none with abandoning := true }, by decide⟩,
   ⟨withRelay { relayIn .idle none with clockHeld := true }, by decide⟩,
   withRelay { relayIn .start (some (flightOf true true false 0)) with abandoning := true }, by decide⟩

theorem witness_RelayBytesAndRecoverySettle :
    (∃ s f, Running s ∧ LinesFree s.relay ∧ s.relay.flight = some f ∧ s.relay.bus = .address
        ∧ f.inVerify = false ∧ f.bytes = 0)
    ∧ (∃ s f, Running s ∧ LinesFree s.relay ∧ s.relay.flight = some f ∧ s.relay.bus = .writeData
        ∧ f.inVerify = false ∧ f.wide = true ∧ f.bytes = 0)
    ∧ (∃ s f, Running s ∧ LinesFree s.relay ∧ s.relay.flight = some f ∧ s.relay.bus = .writeData
        ∧ f.inVerify = false ∧ f.wide = true ∧ f.bytes = 1 ∧ f.verify = true)
    ∧ (∃ s f, Running s ∧ LinesFree s.relay ∧ s.relay.flight = some f ∧ s.relay.bus = .writeData
        ∧ f.inVerify = false ∧ f.wide = false ∧ f.verify = false)
    ∧ (∃ s f, Running s ∧ LinesFree s.relay ∧ s.relay.flight = some f ∧ s.relay.bus = .readAddress
        ∧ f.inVerify = true)
    ∧ (∃ s f, Running s ∧ LinesFree s.relay ∧ s.relay.flight = some f ∧ s.relay.bus = .readData
        ∧ f.wide = false ∧ f.bytes = 0)
    ∧ (∃ s f, ∃ low : Byte, Running s ∧ LinesFree s.relay ∧ s.relay.flight = some f ∧ s.relay.bus = .readData
        ∧ f.wide = true ∧ f.bytes = 1 ∧ f.value = low.setWidth 16)
    ∧ (∃ s f, Running s ∧ s.relay.bus = .recover ∧ LinesFree s.relay ∧ s.relay.flight = some f
        ∧ s.relay.pulses = 7)
    ∧ (∃ s f, Running s ∧ s.relay.bus = .recover ∧ LinesFree s.relay ∧ s.relay.flight = some f
        ∧ s.relay.pulses = 8)
    ∧ ∃ (r : RelayMaster) (f : Flight), r.flight = some f ∧ r.bus = .readAddress ∧ f.address = 119 :=
  ⟨⟨withRelay (relayIn .address (some (flightOf true true false 0))), flightOf true true false 0, by decide⟩,
   ⟨withRelay (relayIn .writeData (some (flightOf true true false 0))), flightOf true true false 0, by decide⟩,
   ⟨withRelay (relayIn .writeData (some (flightOf true true false 1))), flightOf true true false 1, by decide⟩,
   ⟨withRelay (relayIn .writeData (some (flightOf false false false 0))), flightOf false false false 0, by decide⟩,
   ⟨withRelay (relayIn .readAddress (some (flightOf true true true 0))), flightOf true true true 0, by decide⟩,
   ⟨withRelay (relayIn .readData (some (flightOf false true true 0))), flightOf false true true 0, by decide⟩,
   ⟨withRelay (relayIn .readData (some (flightOf true true true 1))), flightOf true true true 1, 0, by decide⟩,
   ⟨withRelay { relayIn .recover (some (flightOf true true true 1)) with pulses := 7 }, flightOf true true true 1,
    by decide⟩,
   ⟨withRelay { relayIn .recover (some (flightOf true true true 1)) with pulses := 8 }, flightOf true true true 1,
    by decide⟩,
   relayIn .readAddress (some { flightOf true true true 0 with address := 119 }),
   { flightOf true true true 0 with address := 119 }, by decide⟩

/-- `ready` with port A's record as given. -/
def withPort (r : PortRecord) : State := { ready with port := { resetPorts with ports := update resetPorts.ports 0 fun _ => r } }

theorem witness_PortFramesActOnTheSlot :
    (∃ s, Running s ∧ s.port.ports[portIndex .A].deaf = true)
    ∧ (∃ s h, Running s ∧ s.port.ports[portIndex .A].deaf = false ∧ s.port.ports[portIndex .A].frame = none
        ∧ s.port.ports[portIndex .A].slot = .pending h)
    ∧ (∃ (s : State) (bytes : List Byte), Running s ∧ s.port.ports[portIndex .A].deaf = false
        ∧ s.port.ports[portIndex .A].frame = none ∧ bytes ≠ [] ∧ bytes.head? ≠ some 2
        ∧ s.port.ports[portIndex .A].slot = .empty)
    ∧ (∃ (bytes args : List Byte) (code hi lo : Byte), bytes = 1 :: code :: hi :: lo :: args
        ∧ args.length = hi.toNat * 256 + lo.toNat ∧ args.length ≤ 512)
    ∧ (∃ s x, Running s ∧ s.port.ports[portIndex .A].deaf = false ∧ s.port.ports[portIndex .A].frame = none
        ∧ s.port.ports[portIndex .A].slot = .ready x)
    ∧ (∃ s f, ∃ clocked : Nat, Running s ∧ s.port.ports[portIndex .A].deaf = false
        ∧ s.port.ports[portIndex .A].frame = some f ∧ f.isResponse = true ∧ clocked = 3)
    ∧ (∃ s f x, ∃ clocked : Nat, Running s ∧ s.port.ports[portIndex .A].deaf = false
        ∧ s.port.ports[portIndex .A].frame = some f ∧ f.isResponse = true ∧ clocked = 4
        ∧ s.port.ports[portIndex .A].slot = .ready x)
    ∧ ∃ (r : PortRecord) (f : ReadFrame) (b : Byte), r.frame = some f ∧ f.bytes[3]? = some b ∧ f.bytes.length ≤ 4 := by
  let x : Response := { status := .ok, clamped := false, dropped := false, data := [] }
  let f : ReadFrame := { bytes := [0, 0, 0, 0], isResponse := true }
  exact ⟨⟨withPort { resetPort with deaf := true }, by decide⟩, ⟨holding statusRequest, statusRequest, by decide⟩,
    ⟨ready, [1], by decide⟩, ⟨[1, 0x70, 0, 0], [], 0x70, 0, 0, by decide⟩,
    ⟨withPort { resetPort with slot := .ready x }, x, by decide⟩,
    ⟨withPort { resetPort with slot := .ready x, frame := some f }, f, 3, by decide⟩,
    ⟨withPort { resetPort with slot := .ready x, frame := some f }, f, x, 4, by decide⟩,
    { resetPort with frame := some f }, f, 0, by decide⟩

theorem witness_ArbiterServesInRotation :
    (∃ s, Running s ∧ ∀ q h, s.port.ports[portIndex q].slot ≠ .pending h)
    ∧ (∀ h : HeldRequest, ∃ s, Running s ∧ s.port.ports[portIndex .A].slot = .pending h
      ∧ ∀ q h', s.port.ports[portIndex q].slot = .pending h' →
        (portIndex .A - portIndex s.port.lastServed - 1).val ≤ (portIndex q - portIndex s.port.lastServed - 1).val)
    ∧ ∃ h : HeldRequest, h.malformed = false ∧ h.code = 0x65
      ∧ frameOf (.driveLine .A 7 (.pulse 65535)) = some (.A, h.code, h.arguments)
      ∧ Instr.wf (.driveLine .A 7 (.pulse 65535)) = true :=
  ⟨⟨ready, rfl, by intro q h; cases q <;> exact fun e => by cases e⟩,
   fun h => ⟨holding h, rfl, rfl, fun q h' _ => Nat.zero_le _⟩,
   { kind := 1, code := 0x65, length := 4, arguments := [7, 1, 255, 255], malformed := false }, by decide⟩

theorem witness_EveryStepKeepsAlarmsAndPorts :
    (∃ s t, AlarmsKept s ∧ s.alarm.active ≠ [] ∧ step s = .next t)
    ∧ ∃ s t, PortsKept s ∧ s.port.ports[0].slot ≠ .empty ∧ step s = .next t := by
  let s1 : State := withActive ready (activeOf lostId true false)
  obtain ⟨t1, h1⟩ := step_withCommand s1
  obtain ⟨t2, h2⟩ := step_withCommand (holding statusRequest)
  refine ⟨⟨withCommand s1, t1, one_entry_kept (withCommand ready) _ _ (by simp) rfl, by decide, h1⟩,
    withCommand (holding statusRequest), t2, ?_, by decide, h2⟩
  intro i
  refine ⟨?_, ?_⟩
  · intro h
    have : ∀ j : Fin 3, (withCommand (holding statusRequest)).port.ports[j].dropped = false := by decide
    rw [this i] at h; cases h
  · intro r h
    by_cases hi : i = 0
    · subst hi; cases h
    · have : (withCommand (holding statusRequest)).port.ports[i] = resetPort := by
        simp [withCommand, holding, resetPorts, update, show ¬0 = i.val from fun e => hi (Fin.ext e.symm)]
      rw [this] at h; cases h

/-! ### Section 6.7: the read of a delay ring -/

/-- At a delay of 60 with two periods of program, samples 12..47 come from the memory, from position 144 on. -/
theorem test_ring_read_after_raised_delay :
    memorySamples { writeIndex := 240, history := 2, zeros := 0 } 60 = (List.range 36).map (· + 12)
    ∧ readPosition { writeIndex := 240, history := 2, zeros := 0 } 60 12 = 144 ∧ ringWord 21 144 = 323728 := by
  decide

/-- A read that starts at position 12,276 wraps to the ring's base after its twelfth word. -/
theorem test_ring_read_wraps :
    readPosition { writeIndex := 96, history := 256, zeros := 0 } 60 0 = 12276
    ∧ ringWord 21 12276 = 335860 ∧ ringWord 21 (12276 + 12) = 323584 ∧ ringWord 21 (12276 + 47) = 323619 := by
  decide

/-! ### What the part sends, and the search for a packet -/

/-- R22, R188: a channel count of 17 resumes the search at the byte after its sync word, where the next sync word stands
among the fields read. -/
theorem test_search_resumes_after_sync_word :
    searchStream [0x5E, 0xC3, 9, 0x5E, 0xC3, 0, 0, 17, 0, 0, 1] = (some #v[0, 0, 17, 0, 0, 1], []) := by decide

/-- R22: bytes that form no sync word are passed over, but for a last byte that may begin one. -/
theorem test_search_passes_over : searchStream [0x5E, 0x5E, 0xC2, 0x5E] = (none, [0x5E]) := by decide

/-- R172: the address byte of expander address 77h carries write, and output 8 of the captured image is the bit of weight
1 of the second data byte. -/
theorem test_master_writes :
    relayDrive false (relayIn .address (some { flightOf true true false 0 with address := 0x77 })) = [.byte 0xEE]
    ∧ relayDrive false (relayIn .writeData (some { flightOf true true false 1 with image := 0x01FF })) = [.byte 0x01] := by decide

/-- R173: the master acknowledges the first of two read bytes and not the second. -/
theorem test_master_acknowledges :
    relayDrive false (relayIn .readData (some (flightOf true true true 0))) = [.readByte true]
    ∧ relayDrive false (relayIn .readData (some (flightOf true true true 1))) = [.readByte false] := by decide

/-- R180, R182, R193: what data out sends in a READ frame of one data byte, and beyond it. -/
theorem test_data_out :
    let r : PortRecord := { resetPort with frame := some { bytes := [0, 0, 0, 1, 0xAB], isResponse := true } }
    (List.range 7).map (dataOut true r) = [.sends 0, .sends 0, .sends 0, .sends 0, .sends 1, .sends 0xAB, .sends 0]
    ∧ dataOut false r 5 = .floats ∧ dataOut true resetPort 3 = .sends 0 := by decide

/-! ### Rules of the review -/

/-- The state a command leaves. -/
def stateAfter (o : Host.Outcome State Fault Refusal) : State :=
  match o with
  | .next t => t
  | _ => State.reset

/-- R162: the screen's next advance follows the hold of its own cue event. -/
theorem test_advance_follows_the_hold :
    (stateAfter (exec (.positionAdvance 0) (holdOnItsWay [⟨0, 0, .start⟩]))).mail.advances = [⟨0, 0, .start⟩] := by decide

/-- R156: SCREEN_ON comes behind an advance already sent, which leaves the pool's cue HELD and the end absent. -/
theorem test_screen_on_follows_the_advances :
    let t := stateAfter (exec (.screenOn .A 0)
      { withCue markCue with mail := { noMail with advances := [⟨0, 53, .contiguous⟩, ⟨1, 0, .start⟩] } })
    t.mail.advances = [⟨1, 0, .start⟩] ∧ t.cue.schedules[0] = { enable := true, lastEnd := none }
      ∧ t.cue.pool.map (fun c => c.state) = [.held 0] := by decide +kernel

/-- R177: a reset drives the STOP of the transaction it abandons, and then releases both lines. -/
theorem test_reset_gives_a_stop :
    let t := stateAfter (exec (.resetPart .A) (withRelay (relayIn .writeData (some (flightOf true true false 1)))))
    relayDrive false t.relay = [.stop] ∧ relayDrive false (stateAfter (exec .relayStopCondition t)).relay = [.released] := by
  decide +kernel

/-- R177: a reset with the clock held low still gives its STOP after the next transaction has started. -/
theorem test_a_stop_outlasts_a_start :
    let t := stateAfter (exec (.resetPart .A)
      (withRelay { relayIn .writeData (some (flightOf true true false 1)) with clockHeld := true }))
    let u := startTransaction 0 [] t
    relayDrive false u.relay = [.stop] ∧ (stateAfter (exec .relayStopCondition u)).relay = u.relay
      ∧ relayDrive false (stateAfter (exec .relayStopCondition (stateAfter (exec .clockHoldEnd u)))).relay = [.released, .start] := by
  decide +kernel

/-- R162: an advance waits for a CUE_MARK on its way, whatever its action. -/
theorem test_advance_follows_the_mark :
    (stateAfter (exec (.positionAdvance 0) (markOnItsWay [⟨0, 0, .start⟩]))).mail.advances = [⟨0, 0, .start⟩] := by decide

/-! ### FORMAT -/

/-- R43: a FORMAT effect that names the mode in effect changes nothing. -/
theorem test_format_in_effect_changes_nothing : applyFormat 0 .discrete playing = playing := rfl

/-- R40, R43: one that names another mode is staged and marked on a screen in service. -/
theorem test_format_is_staged :
    ((applyFormat 0 .matrix playing).decoder[0].staged.map Profile.mode, (applyFormat 0 .matrix playing).screens[0].formatMark)
      = (some .matrix, true) := rfl

/-! ### The START of a relay transaction -/

/-- R172: both lines are released before a START, which is not given while the clock or the data line is held low. -/
theorem test_lines_are_released_before_a_start :
    let r := relayIn .start (some (flightOf true true false 0))
    relayDrive true r = [.released] ∧ relayDrive false { r with clockHeld := true } = [.released]
      ∧ relayDrive false r = [.released, .start] := by decide

end Sys2Proof.Tests
end

section
/-! SUPPORT. The operations of the blocks leave the record of the part as a whole and the queue of commands as they are:
one lemma per operation, in the order of the model. -/

namespace Sys2Proof.Machine

open Sys2Proof

/-- `t` has the record of the part as a whole (house period count, reset line, last reset kind) and the queue of
commands as `s` has them. -/
@[simp] abbrev SystemKept (s t : State) : Prop := t.system = s.system ∧ t.pending = s.pending

/-- What every round of a repeated operation keeps of the part as a whole, all of them keep. -/
theorem forEach_keepsSystem {α : Type} {f : α → State → State} (hf : ∀ x s, SystemKept s (f x s)) (xs : List α)
    (s : State) : SystemKept s (forEach xs f s) :=
  ⟨forEach_same (fun x t => (hf x t).1) xs s, forEach_same (fun x t => (hf x t).2) xs s⟩

/-! ### Banks -/

@[simp] theorem settleDelays_keepsSystem (n : Fin 8) (s : State) : SystemKept s (settleDelays n s) := ⟨rfl, rfl⟩

@[simp] theorem swapBank_keepsSystem (n : Fin 8) (s : State) : SystemKept s (swapBank n s) := by
  unfold swapBank
  split
  · split <;> simp
  · simp

@[simp] theorem applySwap_keepsSystem (n : Fin 8) (s : State) : SystemKept s (applySwap n s) := by
  simp [applySwap]

@[simp] theorem stageSwap_keepsSystem (n : Fin 8) (s : State) : SystemKept s (stageSwap n s) := by
  unfold stageSwap
  split <;> simp

/-! ### Memory and the ring stage -/

@[simp] theorem grantBus_keepsSystem (s : State) : SystemKept s (grantBus s) := by
  unfold grantBus
  repeat' split
  all_goals simp [startRefresh]

@[simp] theorem restartRings_keepsSystem (n : Fin 8) (s : State) : SystemKept s (restartRings n s) := by
  simp [restartRings]

@[simp] theorem withdrawTransfers_keepsSystem (s : State) : SystemKept s (withdrawTransfers s) := ⟨rfl, rfl⟩

@[simp] theorem onWork_keepsSystem (c : Fin 16) (f : ChannelWork → ChannelWork) (s : State) :
    SystemKept s (onWork c f s) := ⟨rfl, rfl⟩

@[simp] theorem markClip_keepsSystem (n : Fin 8) (c : Fin 16) (b : Bool) (s : State) :
    SystemKept s (markClip n c b s) := ⟨rfl, rfl⟩

@[simp] theorem finishChannel_keepsSystem (v : Service) (c : Fin 16) (vs : Samples) (s : State) :
    SystemKept s (finishChannel v c vs s) := ⟨rfl, rfl⟩

@[simp] theorem settleRead_keepsSystem (v : Service) (c : Fin 16) (post : Samples) (s : State) :
    SystemKept s (settleRead v c post s) := by
  dsimp only [settleRead]
  split
  · simp
  · split <;> simp

@[simp] theorem finishSections_keepsSystem (v : Service) (c : Fin 16) (s : State) :
    SystemKept s (finishSections v c s) := by
  dsimp only [finishSections]
  split <;> simp

@[simp] theorem completeTransfer_keepsSystem (t : RingTransfer) (live : Bool) (s : State) :
    SystemKept s (completeTransfer t live s) := by
  dsimp only [completeTransfer]
  repeat' split
  all_goals simp

/-! ### The library -/

@[simp] theorem lowerPending_keepsSystem (k : Fin 48) (s : State) : SystemKept s (lowerPending k s) := ⟨rfl, rfl⟩

@[simp] theorem queueLoad_keepsSystem (k : Fin 48) (n : Fin 8) (s : State) : SystemKept s (queueLoad k n s) :=
  ⟨rfl, rfl⟩

@[simp] theorem retireHead_keepsSystem (s : State) : SystemKept s (retireHead s) := ⟨rfl, rfl⟩

@[simp] theorem dropLoad_keepsSystem (n : Fin 8) (s : State) : SystemKept s (dropLoad n s) := by
  unfold dropLoad
  repeat' split
  all_goals simp

@[simp] theorem removeDraft_keepsSystem (n : Fin 8) (s : State) : SystemKept s (removeDraft n s) := by
  dsimp only [removeDraft]
  split
  · split <;> simp
  · simp

@[simp] theorem startEntry_keepsSystem (s : State) : SystemKept s (startEntry s) := by
  unfold startEntry
  split <;> simp

@[simp] theorem completeSave_keepsSystem (e : LibraryEntry) (tag : Word) (s : State) :
    SystemKept s (completeSave e tag s) := ⟨rfl, rfl⟩

@[simp] theorem deliverGood_keepsSystem (n : Fin 8) (b : Bank) (s : State) : SystemKept s (deliverGood n b s) := by
  unfold deliverGood
  repeat' split
  all_goals simp

@[simp] theorem deliverCorrupt_keepsSystem (n : Fin 8) (s : State) : SystemKept s (deliverCorrupt n s) := by
  unfold deliverCorrupt
  repeat' split
  all_goals simp

@[simp] theorem completeLoad_keepsSystem (e : LibraryEntry) (s : State) : SystemKept s (completeLoad e s) := by
  dsimp only [completeLoad]
  split <;> simp

@[simp] theorem reportBurst_keepsSystem (s : State) : SystemKept s (reportBurst s) := by
  unfold reportBurst
  repeat' split
  all_goals simp

@[simp] theorem askNext_keepsSystem (s : State) : SystemKept s (askNext s) := by
  unfold askNext
  split <;> simp

@[simp] theorem completeBurst_keepsSystem (b : Burst) (words : List Word) (live requestFirst : Bool) (s : State) :
    SystemKept s (completeBurst b words live requestFirst s) := by
  dsimp only [completeBurst]
  repeat' split
  all_goals simp

@[simp] theorem acceptEqSelect_keepsSystem (n : Fin 8) (k : Fin 48) (id : Nat) (s : State) :
    SystemKept s (acceptEqSelect n k id s) := by
  simp [acceptEqSelect]

/-! ### Alarms -/

@[simp] theorem carryOut_keepsSystem (act : AlarmAction) (id : AlarmId) (s : State) :
    SystemKept s (carryOut act id s) := by
  unfold carryOut
  repeat' split
  all_goals simp

@[simp] theorem takeRaise_keepsSystem (r : AlarmReport) (s : State) : SystemKept s (takeRaise r s) := by
  simp [takeRaise]

@[simp] theorem takeAbsence_keepsSystem (id : AlarmId) (s : State) : SystemKept s (takeAbsence id s) := by
  unfold takeAbsence
  repeat' split
  all_goals simp

@[simp] theorem acknowledge_keepsSystem (p : ActiveEntry → Bool) (s : State) : SystemKept s (acknowledge p s) :=
  ⟨rfl, rfl⟩

/-! ### Relays -/

@[simp] theorem onExpander_keepsSystem (e : Fin 8) (f : Expander → Expander) (s : State) :
    SystemKept s (onExpander e f s) := ⟨rfl, rfl⟩

@[simp] theorem onFlight_keepsSystem (f : Flight → Flight) (s : State) : SystemKept s (onFlight f s) := ⟨rfl, rfl⟩

@[simp] theorem relayRequest_keepsSystem (e : Fin 8) (mask values : Half) (s : State) :
    SystemKept s (relayRequest e mask values s) := by
  dsimp only [relayRequest]
  split <;> simp

@[simp] theorem enterBus_keepsSystem (b : BusState) (s : State) : SystemKept s (enterBus b s) := ⟨rfl, rfl⟩

@[simp] theorem enterIdle_keepsSystem (s : State) : SystemKept s (enterIdle s) := ⟨rfl, rfl⟩

@[simp] theorem startTransaction_keepsSystem (e : Fin 8) (rest : List (Fin 8)) (s : State) :
    SystemKept s (startTransaction e rest s) := ⟨rfl, rfl⟩

@[simp] theorem settleSuccess_keepsSystem (f : Flight) (s : State) : SystemKept s (settleSuccess f s) := by
  unfold settleSuccess
  split <;> simp

@[simp] theorem settleFailure_keepsSystem (f : Flight) (g : Option Half → Option Half) (s : State) :
    SystemKept s (settleFailure f g s) := ⟨rfl, rfl⟩

@[simp] theorem giveUp_keepsSystem (s : State) : SystemKept s (giveUp s) := ⟨rfl, rfl⟩

@[simp] theorem enterRecover_keepsSystem (s : State) : SystemKept s (enterRecover s) := ⟨rfl, rfl⟩

@[simp] theorem abandon_keepsSystem (f : Flight) (s : State) : SystemKept s (abandon f s) := by
  unfold abandon
  split <;> simp

@[simp] theorem stretchOut_keepsSystem (s : State) : SystemKept s (stretchOut s) := by
  unfold stretchOut
  repeat' split
  all_goals simp

@[simp] theorem stepStretch_keepsSystem (clockLow : Bool) (s : State) : SystemKept s (stepStretch clockLow s) := by
  dsimp only [stepStretch]
  split <;> simp

@[simp] theorem startCondition_keepsSystem (dataLow : Bool) (f : Flight) (s : State) :
    SystemKept s (startCondition dataLow f s) := by
  unfold startCondition
  repeat' split
  all_goals simp

@[simp] theorem nacked_keepsSystem (f : Flight) (s : State) : SystemKept s (nacked f s) := ⟨rfl, rfl⟩

@[simp] theorem countByte_keepsSystem (s : State) : SystemKept s (countByte s) := ⟨rfl, rfl⟩

@[simp] theorem dataByte_keepsSystem (ack : Bool) (f : Flight) (s : State) : SystemKept s (dataByte ack f s) := by
  unfold dataByte
  repeat' split
  all_goals simp

@[simp] theorem readByte_keepsSystem (b : Byte) (f : Flight) (s : State) : SystemKept s (readByte b f s) := by
  dsimp only [readByte]
  repeat' split
  all_goals simp

@[simp] theorem stopCondition_keepsSystem (f : Flight) (s : State) : SystemKept s (stopCondition f s) := by
  unfold stopCondition
  split <;> simp

@[simp] theorem abandonedStop_keepsSystem (s : State) : SystemKept s (abandonedStop s) := by
  unfold abandonedStop
  split <;> simp

@[simp] theorem recoveryPulse_keepsSystem (dataHigh : Bool) (s : State) :
    SystemKept s (recoveryPulse dataHigh s) := by
  dsimp only [recoveryPulse]
  repeat' split
  all_goals simp

/-! ### Profiles and levels -/

@[simp] theorem applyProfile_keepsSystem (n : Fin 8) (s : State) : SystemKept s (applyProfile n s) := ⟨rfl, rfl⟩

@[simp] theorem changeProfile_keepsSystem (n : Fin 8) (f : Profile → Profile) (mark : ScreenContext → ScreenContext)
    (s : State) : SystemKept s (changeProfile n f mark s) := by
  unfold changeProfile
  split <;> simp

@[simp] theorem applyFormat_keepsSystem (n : Fin 8) (m : DecodeMode) (s : State) :
    SystemKept s (applyFormat n m s) := by
  unfold applyFormat
  split <;> simp

@[simp] theorem setFader_keepsSystem (n : Fin 8) (level length : Nat) (s : State) :
    SystemKept s (setFader n level length s) := ⟨rfl, rfl⟩

@[simp] theorem setMute_keepsSystem (n : Fin 8) (muted : Bool) (s : State) : SystemKept s (setMute n muted s) :=
  ⟨rfl, rfl⟩

@[simp] theorem stepGain_keepsSystem (n : Fin 8) (s : State) : SystemKept s (stepGain n s) := by
  unfold stepGain
  split <;> simp

/-! ### Meters -/

@[simp] theorem updateMeters_keepsSystem (v : Service) (s : State) : SystemKept s (updateMeters v s) := ⟨rfl, rfl⟩

@[simp] theorem clipEvents_keepsSystem (n : Fin 8) (s : State) : SystemKept s (clipEvents n s) :=
  forEach_keepsSystem (fun c t => by split <;> simp) _ s

@[simp] theorem clearWatches_keepsSystem (n : Fin 8) (s : State) : SystemKept s (clearWatches n s) := ⟨rfl, rfl⟩

@[simp] theorem zeroMeters_keepsSystem (n : Fin 8) (s : State) : SystemKept s (zeroMeters n s) := ⟨rfl, rfl⟩

/-! ### Screens -/

@[simp] theorem changeContext_keepsSystem (n : Fin 8) (f : ScreenContext → ScreenContext) (s : State) :
    SystemKept s (changeContext n f s) := ⟨rfl, rfl⟩

@[simp] theorem takeAddition_keepsSystem (m : CauseMessage) (s : State) : SystemKept s (takeAddition m s) := by
  unfold takeAddition
  split <;> simp

@[simp] theorem takeRemoval_keepsSystem (m : CauseMessage) (s : State) : SystemKept s (takeRemoval m s) := by
  unfold takeRemoval
  split <;> simp

@[simp] theorem applyStaged_keepsSystem (n : Fin 8) (s : State) : SystemKept s (applyStaged n s) := by
  simp [applyStaged]

@[simp] theorem reportAbsences_keepsSystem (n : Fin 8) (s : State) : SystemKept s (reportAbsences n s) := ⟨rfl, rfl⟩

@[simp] theorem markStale_keepsSystem (n : Fin 8) (s : State) : SystemKept s (markStale n s) := ⟨rfl, rfl⟩

@[simp] theorem enterOff_keepsSystem (n : Fin 8) (s : State) : SystemKept s (enterOff n s) := by
  simp [enterOff]

@[simp] theorem discardBlock_keepsSystem (n : Fin 8) (s : State) : SystemKept s (discardBlock n s) := by
  unfold discardBlock
  split <;> simp

@[simp] theorem placeBlock_keepsSystem (n : Fin 8) (b : Block) (s : State) : SystemKept s (placeBlock n b s) := by
  unfold placeBlock
  split <;> simp

@[simp] theorem enterService_keepsSystem (n : Fin 8) (s : State) : SystemKept s (enterService n s) := by
  simp [enterService]

/-! ### Cues -/

@[simp] theorem setCueState_keepsSystem (n : Fin 8) (id : Nat) (st : CueState) (s : State) :
    SystemKept s (setCueState n id st s) := ⟨rfl, rfl⟩

@[simp] theorem handOff_keepsSystem (c : Cue) (s : State) : SystemKept s (handOff c s).1 := by
  unfold handOff
  repeat' split
  all_goals simp

@[simp] theorem fireCue_keepsSystem (c : Cue) (s : State) : SystemKept s (fireCue c s) := by
  simp only [fireCue]
  split <;> simp

@[simp] theorem takeCue_keepsSystem (c : Cue) (s : State) : SystemKept s (takeCue c s) := by
  unfold takeCue
  split <;> simp

@[simp] theorem passCue_keepsSystem (c : Cue) (s : State) : SystemKept s (passCue c s) := by
  unfold passCue
  split <;> simp

@[simp] theorem kindStep_keepsSystem (a : Advance) (s : State) : SystemKept s (kindStep a s) := by
  unfold kindStep
  split
  · simp
  · exact forEach_keepsSystem passCue_keepsSystem _ s
  · exact forEach_keepsSystem passCue_keepsSystem _ s
  · simp

@[simp] theorem rangeStep_keepsSystem (a : Advance) (s : State) : SystemKept s (rangeStep a s) :=
  forEach_keepsSystem takeCue_keepsSystem _ s

@[simp] theorem takeAdvance_keepsSystem (a : Advance) (s : State) : SystemKept s (takeAdvance a s) := by
  simp [takeAdvance]

@[simp] theorem bringHolds_keepsSystem (n : Fin 8) (s : State) : SystemKept s (bringHolds n s) := by
  unfold bringHolds
  split <;> simp

@[simp] theorem bringEvents_keepsSystem (n : Fin 8) (s : State) : SystemKept s (bringEvents n s) := by
  simp [bringEvents, forEach_keepsSystem takeRaise_keepsSystem]

@[simp] theorem takeSent_keepsSystem (a : Advance) (s : State) : SystemKept s (takeSent a s) := by
  simp [takeSent]

@[simp] theorem takeSentAdvances_keepsSystem (n : Fin 8) (s : State) : SystemKept s (takeSentAdvances n s) := by
  simp [takeSentAdvances, forEach_keepsSystem takeSent_keepsSystem]

@[simp] theorem releaseCue_keepsSystem (c : Cue) (s : State) : SystemKept s (releaseCue c s) := by
  unfold releaseCue
  repeat' split
  all_goals simp

@[simp] theorem enableCues_keepsSystem (n : Fin 8) (s : State) : SystemKept s (enableCues n s) := by
  simp [enableCues, forEach_keepsSystem releaseCue_keepsSystem]

@[simp] theorem takeOutcome_keepsSystem (o : LoadOutcome) (s : State) : SystemKept s (takeOutcome o s) := by
  unfold takeOutcome
  repeat' split
  all_goals simp

/-! ### Links -/

@[simp] theorem moveLink_keepsSystem (n : Fin 8) (st : LinkState) (f : LinkRecord → LinkRecord) (s : State) :
    SystemKept s (moveLink n st f s) := ⟨rfl, rfl⟩

@[simp] theorem linkDown_keepsSystem (n : Fin 8) (s : State) : SystemKept s (linkDown n s) := ⟨rfl, rfl⟩

@[simp] theorem loseLink_keepsSystem (n : Fin 8) (s : State) : SystemKept s (loseLink n s) := ⟨rfl, rfl⟩

@[simp] theorem lockLink_keepsSystem (n : Fin 8) (p : Packet) (s : State) : SystemKept s (lockLink n p s) := by
  unfold lockLink
  split <;> simp

@[simp] theorem acquire_keepsSystem (n : Fin 8) (p : Packet) (expected : Word) (s : State) :
    SystemKept s (acquire n p expected s) := by
  unfold acquire
  repeat' split
  all_goals simp

@[simp] theorem enqueue_keepsSystem (n : Fin 8) (p : Packet) (s : State) : SystemKept s (enqueue n p s) := by
  unfold enqueue
  repeat' split
  all_goals simp

@[simp] theorem goodPacket_keepsSystem (n : Fin 8) (p : Packet) (s : State) : SystemKept s (goodPacket n p s) := by
  unfold goodPacket
  split <;> simp

@[simp] theorem arrive_keepsSystem (n : Fin 8) (fields : Vector Byte 6) (rest : List Byte) (s : State) :
    SystemKept s (arrive n fields rest s) := by
  unfold arrive
  repeat' split
  all_goals simp

@[simp] theorem raiseQuiet_keepsSystem (n : Fin 8) (s : State) : SystemKept s (raiseQuiet n s) := ⟨rfl, rfl⟩

@[simp] theorem stepQuiet_keepsSystem (n : Fin 8) (s : State) : SystemKept s (stepQuiet n s) := by
  dsimp only [stepQuiet]
  split <;> simp

@[simp] theorem handOut_keepsSystem (n : Fin 8) (p : Word) (s : State) : SystemKept s (handOut n p s) := ⟨rfl, rfl⟩

@[simp] theorem takeInput_keepsSystem (n : Fin 8) (s : State) : SystemKept s (takeInput n s).1 := by
  dsimp only [takeInput]
  split
  · split <;> simp
  · split <;> simp
  · simp
  · simp

/-! ### Periods -/

@[simp] theorem periodInput_keepsSystem (n : Fin 8) (s : State) : SystemKept s (periodInput n s).1 := by
  unfold periodInput
  split <;> simp

@[simp] theorem skipBody_keepsSystem (n : Fin 8) (s : State) : SystemKept s (skipBody n s) := by
  simp [skipBody]

@[simp] theorem skipPeriod_keepsSystem (n : Fin 8) (s : State) : SystemKept s (skipPeriod n s) := by
  simp [skipPeriod]

@[simp] theorem startProcessed_keepsSystem (n : Fin 8) (s : State) : SystemKept s (startProcessed n s) := by
  simp [startProcessed]

@[simp] theorem grantPeriod_keepsSystem (n : Fin 8) (s : State) : SystemKept s (grantPeriod n s) := by
  dsimp only [grantPeriod]
  split <;> simp

@[simp] theorem endPeriod_keepsSystem (v : Service) (s : State) : SystemKept s (endPeriod v s) := by
  simp [endPeriod]

@[simp] theorem cutShort_keepsSystem (n : Fin 8) (s : State) : SystemKept s (cutShort n s) := by
  simp [cutShort]

@[simp] theorem overflow_keepsSystem (n : Fin 8) (s : State) : SystemKept s (overflow n s) := by
  unfold overflow
  split <;> simp

@[simp] theorem demand_keepsSystem (n : Fin 8) (s : State) : SystemKept s (demand n s) := by
  dsimp only [demand]
  repeat' split
  all_goals simp

@[simp] theorem completeBackup_keepsSystem (frames : Vector (PinSample × PinSample) 48) (s : State) :
    SystemKept s (completeBackup frames s) := ⟨rfl, rfl⟩

@[simp] theorem stepLines_keepsSystem (s : State) : SystemKept s (stepLines s) := ⟨rfl, rfl⟩

@[simp] theorem endWait_keepsSystem (s : State) : SystemKept s (endWait s) := by
  unfold endWait
  split <;> simp

@[simp] theorem expireDraft_keepsSystem (n : Fin 8) (s : State) : SystemKept s (expireDraft n s) := by
  unfold expireDraft
  split <;> simp

/-- A house period boundary counts the period (R1); all else it drives leaves the part as a whole as it is. -/
theorem houseBoundary_keepsSystem (frames : Vector (PinSample × PinSample) 48) (clockLow : Bool) (s : State) :
    SystemKept (countPeriod s) (houseBoundary frames clockLow s) := by
  simp [houseBoundary, forEach_keepsSystem demand_keepsSystem, forEach_keepsSystem stepQuiet_keepsSystem,
    forEach_keepsSystem stepGain_keepsSystem, forEach_keepsSystem expireDraft_keepsSystem]

@[simp] theorem setStep_keepsSystem (st : InitStep) (s : State) : SystemKept s (setStep st s) := ⟨rfl, rfl⟩

@[simp] theorem memoryReady_keepsSystem (s : State) : SystemKept s (memoryReady s) := ⟨rfl, rfl⟩

end Sys2Proof.Machine
end

section
/-! SUPPORT. The owners of the requests leave the part as a whole and the queue of commands as they are, but for
RESET_PART; the requests of the catalogue, each with its port and its owner, and what the request arbiter can serve. -/

namespace Sys2Proof.Machine

open Sys2Proof

/-! ### Arguments in and out of range -/

theorem withScreen_keepsSystem {n : Nat} {s : State} {f : Fin 8 → State × Reply}
    (hf : ∀ m, SystemKept s (f m).1) : SystemKept s (withScreen n s f).1 := by
  unfold withScreen
  split
  · exact hf _
  · exact ⟨rfl, rfl⟩

theorem withSlot_keepsSystem {k : Nat} {s : State} {f : Fin 48 → State × Reply}
    (hf : ∀ m, SystemKept s (f m).1) : SystemKept s (withSlot k s f).1 := by
  unfold withSlot
  split
  · exact hf _
  · exact ⟨rfl, rfl⟩

theorem withExpander_keepsSystem {e : Nat} {s : State} {f : Fin 8 → State × Reply}
    (hf : ∀ m, SystemKept s (f m).1) : SystemKept s (withExpander e s f).1 := by
  unfold withExpander
  split
  · exact hf _
  · exact ⟨rfl, rfl⟩

theorem withLine_keepsSystem {i : Nat} {s : State} {f : Fin 4 → State × Reply}
    (hf : ∀ m, SystemKept s (f m).1) : SystemKept s (withLine i s f).1 := by
  unfold withLine
  split
  · exact hf _
  · exact ⟨rfl, rfl⟩

@[simp] theorem refuse_keepsSystem (st : Status) (s : State) : SystemKept s (refuse st s).1 := ⟨rfl, rfl⟩

/-! ### Owners -/

theorem ownerScreenOn_keepsSystem (n : Nat) (s : State) : SystemKept s (ownerScreenOn n s).1 :=
  withScreen_keepsSystem fun _ => by
    repeat' split
    all_goals simp

theorem ownerScreenOff_keepsSystem (n : Nat) (s : State) : SystemKept s (ownerScreenOff n s).1 :=
  withScreen_keepsSystem fun _ => by
    repeat' split
    all_goals simp

theorem ownerForceFallback_keepsSystem (n : Nat) (s : State) : SystemKept s (ownerForceFallback n s).1 :=
  withScreen_keepsSystem fun _ => by split <;> simp

theorem ownerResume_keepsSystem (n : Nat) (s : State) : SystemKept s (ownerResume n s).1 :=
  withScreen_keepsSystem fun _ => by split <;> simp

theorem ownerSetProfile_keepsSystem (n tag mode lt rt depth back : Nat) (s : State) :
    SystemKept s (ownerSetProfile n tag mode lt rt depth back s).1 :=
  withScreen_keepsSystem fun _ => by
    repeat' split
    all_goals simp

theorem ownerSetSource_keepsSystem (n channel selector link : Nat) (s : State) :
    SystemKept s (ownerSetSource n channel selector link s).1 :=
  withScreen_keepsSystem fun _ => by
    repeat' split
    all_goals simp

theorem ownerSetFaderLaw_keepsSystem (entries : List Nat) (s : State) :
    SystemKept s (ownerSetFaderLaw entries s).1 := by
  unfold ownerSetFaderLaw
  repeat' split
  all_goals simp

theorem createDraft_keepsSystem (p : Port) (n : Fin 8) (o : Origin) (s : State) :
    SystemKept s (createDraft p n o s) := by
  unfold createDraft
  cases o <;> simp

theorem ownerOpenDraft_keepsSystem (p : Port) (n origin slot : Nat) (s : State) :
    SystemKept s (ownerOpenDraft p n origin slot s).1 :=
  withScreen_keepsSystem fun _ => by
    dsimp only
    repeat' split
    all_goals simp [touchDraft, createDraft_keepsSystem]

theorem editDraft_keepsSystem (p : Port) (n : Fin 8) (edit : Bank → Bank) (clamped : Bool) (s : State) :
    SystemKept s (editDraft p n edit clamped s).1 := by
  unfold editDraft
  repeat' split
  all_goals simp [touchDraft]

theorem ownerSetSection_keepsSystem (p : Port) (n channel sec inUse : Nat) (b0 b1 b2 a1 a2 : Int) (s : State) :
    SystemKept s (ownerSetSection p n channel sec inUse b0 b1 b2 a1 a2 s).1 :=
  withScreen_keepsSystem fun _ => by
    split
    · exact editDraft_keepsSystem ..
    · simp

theorem ownerSetChannel_keepsSystem (p : Port) (n channel trim delay invert : Nat) (s : State) :
    SystemKept s (ownerSetChannel p n channel trim delay invert s).1 :=
  withScreen_keepsSystem fun _ => by
    split
    · exact editDraft_keepsSystem ..
    · simp

theorem commitEditable_keepsSystem (n : Fin 8) (b : Bank) (s : State) : SystemKept s (commitEditable n b s).1 := by
  unfold commitEditable
  split <;> simp

theorem ownerCommit_keepsSystem (p : Port) (n : Nat) (s : State) : SystemKept s (ownerCommit p n s).1 :=
  withScreen_keepsSystem fun _ => by
    dsimp only
    repeat' split
    all_goals simp [touchDraft, commitEditable_keepsSystem]

theorem ownerAbandon_keepsSystem (p : Port) (n : Nat) (s : State) : SystemKept s (ownerAbandon p n s).1 :=
  withScreen_keepsSystem fun _ => by
    repeat' split
    all_goals simp

theorem ownerSaveLibrary_keepsSystem (slot n tag : Nat) (s : State) :
    SystemKept s (ownerSaveLibrary slot n tag s).1 :=
  withSlot_keepsSystem fun _ => withScreen_keepsSystem fun _ => by
    repeat' split
    all_goals simp [queueSave]

theorem ownerEraseSlot_keepsSystem (slot : Nat) (s : State) : SystemKept s (ownerEraseSlot slot s).1 :=
  withSlot_keepsSystem fun _ => by split <;> simp

theorem replaceWatch_keepsSystem (n : Fin 8) (i : Fin 32) (w : Watch) (s : State) :
    SystemKept s (replaceWatch n i w s) := by
  dsimp only [replaceWatch]
  split <;> simp

theorem ownerSetWatch_keepsSystem (n meter kind threshold hold action : Nat) (s : State) :
    SystemKept s (ownerSetWatch n meter kind threshold hold action s).1 :=
  withScreen_keepsSystem fun _ => by
    repeat' split
    all_goals simp [replaceWatch_keepsSystem]

theorem ownerSetSeverity_keepsSystem (kind severity action : Nat) (s : State) :
    SystemKept s (ownerSetSeverity kind severity action s).1 := by
  unfold ownerSetSeverity
  repeat' split
  all_goals simp

theorem ownerSetRoute_keepsSystem (severity mask : Nat) (s : State) :
    SystemKept s (ownerSetRoute severity mask s).1 := by
  unfold ownerSetRoute
  repeat' split
  all_goals simp

theorem ownerSetSnapshotLevel_keepsSystem (severity : Nat) (s : State) :
    SystemKept s (ownerSetSnapshotLevel severity s).1 := by
  unfold ownerSetSnapshotLevel
  split <;> simp

theorem ownerSetLine_keepsSystem (line mode threshold scopeMask follow : Nat) (s : State) :
    SystemKept s (ownerSetLine line mode threshold scopeMask follow s).1 :=
  withLine_keepsSystem fun _ => by
    repeat' split
    all_goals simp

theorem ownerClearLineLatch_keepsSystem (line : Nat) (s : State) :
    SystemKept s (ownerClearLineLatch line s).1 :=
  withLine_keepsSystem fun _ => ⟨rfl, rfl⟩

theorem ownerAckAlarm_keepsSystem (kind scope index : Nat) (s : State) :
    SystemKept s (ownerAckAlarm kind scope index s).1 := by
  unfold ownerAckAlarm
  repeat' split
  all_goals simp

theorem ownerAddCue_keepsSystem (n id position lateLimit catchUp : Nat) (action : RawAction) (s : State) :
    SystemKept s (ownerAddCue n id position lateLimit catchUp action s).1 :=
  withScreen_keepsSystem fun _ => by
    dsimp only
    repeat' split
    all_goals simp

theorem ownerRemoveCue_keepsSystem (n id : Nat) (s : State) : SystemKept s (ownerRemoveCue n id s).1 :=
  withScreen_keepsSystem fun _ => by
    repeat' split
    all_goals simp

theorem ownerCueEnable_keepsSystem (n value : Nat) (s : State) : SystemKept s (ownerCueEnable n value s).1 :=
  withScreen_keepsSystem fun _ => by
    dsimp only
    repeat' split
    all_goals simp

theorem ownerDriveLine_keepsSystem (line : Nat) (drive : RawDrive) (s : State) :
    SystemKept s (ownerDriveLine line drive s).1 := by
  unfold ownerDriveLine
  repeat' split
  all_goals simp

theorem configureExpander_keepsSystem (e : Fin 8) (present : Bool) (address : Nat) (wide verify : Bool) (s : State) :
    SystemKept s (configureExpander e present address wide verify s) := by
  dsimp only [configureExpander]
  repeat' split
  all_goals simp

theorem ownerSetExpander_keepsSystem (expander present address width verify : Nat) (s : State) :
    SystemKept s (ownerSetExpander expander present address width verify s).1 :=
  withExpander_keepsSystem fun _ => by
    repeat' split
    all_goals simp [configureExpander_keepsSystem]

theorem ownerRelayWrite_keepsSystem (expander mask values : Nat) (s : State) :
    SystemKept s (ownerRelayWrite expander mask values s).1 :=
  withExpander_keepsSystem fun _ => by split <;> simp

/-! ### The requests and their owners -/

/-- The port that sends a request and the owner that takes it; nothing for a command that is no request. -/
def requestOwner : Instr → Option (Port × Owner)
  | .screenOn p n => some (p, ownerScreenOn n)
  | .screenOff p n => some (p, ownerScreenOff n)
  | .forceFallback p n => some (p, ownerForceFallback n)
  | .resume p n => some (p, ownerResume n)
  | .getScreen p n => some (p, ownerGetScreen n)
  | .getLink p n => some (p, ownerGetLink n)
  | .setProfile p n tag mode lt rt depth back => some (p, ownerSetProfile n tag mode lt rt depth back)
  | .setSource p n c sel link => some (p, ownerSetSource n c sel link)
  | .getProfile p n => some (p, ownerGetProfile n)
  | .setLevel p n level length => some (p, ownerSetLevel n level length)
  | .mute p n => some (p, ownerMute n)
  | .unmute p n => some (p, ownerUnmute n)
  | .setFaderLaw p entries => some (p, ownerSetFaderLaw entries)
  | .getFaderLaw p => some (p, ownerGetFaderLaw)
  | .openDraft p n origin slot => some (p, ownerOpenDraft p n origin slot)
  | .setSection p n c k u b0 b1 b2 a1 a2 => some (p, ownerSetSection p n c k u b0 b1 b2 a1 a2)
  | .setChannel p n c trim delay invert => some (p, ownerSetChannel p n c trim delay invert)
  | .commit p n => some (p, ownerCommit p n)
  | .abandon p n => some (p, ownerAbandon p n)
  | .getDraft p n => some (p, ownerGetDraft p n)
  | .readBank p n => some (p, ownerReadBank n)
  | .saveLibrary p k n tag => some (p, ownerSaveLibrary k n tag)
  | .eraseSlot p k => some (p, ownerEraseSlot k)
  | .getLibrary p => some (p, ownerGetLibrary)
  | .getMemory p n => some (p, ownerGetMemory n)
  | .readMeters p n => some (p, ownerReadMeters n)
  | .setWatch p n meter kind threshold hold action => some (p, ownerSetWatch n meter kind threshold hold action)
  | .setMeterRelease p shift => some (p, ownerSetMeterRelease shift)
  | .setSeverity p kind severity action => some (p, ownerSetSeverity kind severity action)
  | .setRoute p severity mask => some (p, ownerSetRoute severity mask)
  | .setSnapshotLevel p severity => some (p, ownerSetSnapshotLevel severity)
  | .setLine p line mode threshold scopes follow => some (p, ownerSetLine line mode threshold scopes follow)
  | .clearLineLatch p line => some (p, ownerClearLineLatch line)
  | .readActive p start => some (p, ownerReadActive start)
  | .ackAlarm p kind scope index => some (p, ownerAckAlarm kind scope index)
  | .readLog p start => some (p, ownerReadLog start)
  | .readSnapshot p n => some (p, ownerReadSnapshot n)
  | .releaseSnapshot p n => some (p, ownerReleaseSnapshot n)
  | .addCue p n id position late catchUp action => some (p, ownerAddCue n id position late catchUp action)
  | .removeCue p n id => some (p, ownerRemoveCue n id)
  | .clearCues p n => some (p, ownerClearCues n)
  | .listCues p n start => some (p, ownerListCues n start)
  | .cueEnable p n value => some (p, ownerCueEnable n value)
  | .driveLine p line drive => some (p, ownerDriveLine line drive)
  | .setExpander p e present address width verify => some (p, ownerSetExpander e present address width verify)
  | .relayWrite p e mask values => some (p, ownerRelayWrite e mask values)
  | .getExpander p => some (p, ownerGetExpander)
  | .getStatus p => some (p, ownerGetStatus)
  | .resetPart p => some (p, ownerResetPart)
  | _ => none

/-- A request runs behind the reset line as its owner's service of its port. -/
theorem exec_request {c : Instr} {p : Port} {f : Owner} (h : requestOwner c = some (p, f)) (s : State) :
    exec c s = whenRunning s (servePort p f s) := by
  cases c <;> cases h <;> rfl

/-- The owner of every request but RESET_PART leaves the part as a whole and the queue of commands as they are. -/
theorem requestOwner_keepsSystem {c : Instr} {p : Port} {f : Owner} (h : requestOwner c = some (p, f))
    (hc : c ≠ .resetPart p) (s : State) : SystemKept s (f s).1 := by
  cases c <;> cases h
  case screenOn n => exact ownerScreenOn_keepsSystem n s
  case screenOff n => exact ownerScreenOff_keepsSystem n s
  case forceFallback n => exact ownerForceFallback_keepsSystem n s
  case resume n => exact ownerResume_keepsSystem n s
  case setProfile => exact ownerSetProfile_keepsSystem ..
  case setSource => exact ownerSetSource_keepsSystem ..
  case setFaderLaw entries => exact ownerSetFaderLaw_keepsSystem entries s
  case openDraft => exact ownerOpenDraft_keepsSystem ..
  case setSection => exact ownerSetSection_keepsSystem ..
  case setChannel => exact ownerSetChannel_keepsSystem ..
  case commit n => exact ownerCommit_keepsSystem p n s
  case abandon n => exact ownerAbandon_keepsSystem p n s
  case saveLibrary => exact ownerSaveLibrary_keepsSystem ..
  case eraseSlot k => exact ownerEraseSlot_keepsSystem k s
  case setWatch => exact ownerSetWatch_keepsSystem ..
  case setSeverity => exact ownerSetSeverity_keepsSystem ..
  case setRoute => exact ownerSetRoute_keepsSystem ..
  case setSnapshotLevel v => exact ownerSetSnapshotLevel_keepsSystem v s
  case setLine => exact ownerSetLine_keepsSystem ..
  case clearLineLatch i => exact ownerClearLineLatch_keepsSystem i s
  case ackAlarm => exact ownerAckAlarm_keepsSystem ..
  case addCue => exact ownerAddCue_keepsSystem ..
  case removeCue => exact ownerRemoveCue_keepsSystem ..
  case cueEnable => exact ownerCueEnable_keepsSystem ..
  case driveLine => exact ownerDriveLine_keepsSystem ..
  case setExpander => exact ownerSetExpander_keepsSystem ..
  case relayWrite => exact ownerRelayWrite_keepsSystem ..
  case resetPart => exact absurd rfl hc
  -- owners with one answer for every screen in range
  case getScreen | getLink | getProfile | setLevel | mute | unmute | getDraft | readBank | getMemory | readMeters |
      readSnapshot | releaseSnapshot | clearCues | listCues =>
    exact withScreen_keepsSystem fun _ => ⟨rfl, rfl⟩
  -- owners with one answer
  case getFaderLaw | getLibrary | setMeterRelease | readActive | readLog | getExpander | getStatus => exact ⟨rfl, rfl⟩

/-! ### The catalogue (section 11.5) -/

theorem take0_some {bs : List Byte} {o f : Owner} (h : take0 bs o = some f) : f = o := by
  unfold take0 at h
  split at h <;> cases h
  rfl

theorem take1_some {bs : List Byte} {o : Nat → Owner} {f : Owner} (h : take1 bs o = some f) : ∃ a, f = o a := by
  unfold take1 at h
  split at h <;> cases h
  exact ⟨_, rfl⟩

theorem take2_some {w v : Nat} {bs : List Byte} {o : Nat → Nat → Owner} {f : Owner}
    (h : take2 w v bs o = some f) : ∃ a b, f = o a b := by
  unfold take2 at h
  split at h <;> cases h
  exact ⟨_, _, rfl⟩

theorem take3_some {u v w : Nat} {bs : List Byte} {o : Nat → Nat → Nat → Owner} {f : Owner}
    (h : take3 u v w bs o = some f) : ∃ a b c, f = o a b c := by
  unfold take3 at h
  split at h <;> cases h
  exact ⟨_, _, _, rfl⟩

theorem take4_some {bs : List Byte} {o : Nat → Nat → Nat → Nat → Owner} {f : Owner}
    (h : take4 bs o = some f) : ∃ a b c d, f = o a b c d := by
  unfold take4 at h
  split at h <;> cases h
  exact ⟨_, _, _, _, rfl⟩

theorem take5_some {ws : List Nat} {bs : List Byte} {o : Nat → Nat → Nat → Nat → Nat → Owner} {f : Owner}
    (h : take5 ws bs o = some f) : ∃ a b c d e, f = o a b c d e := by
  unfold take5 at h
  split at h <;> cases h
  exact ⟨_, _, _, _, _, rfl⟩

/-- The owner is that of a request of port `p`. -/
def OwnsRequest (p : Port) (f : Owner) : Prop := ∃ c, requestOwner c = some (p, f)

theorem take0_owns {p : Port} {bs : List Byte} {o f : Owner} (h : take0 bs o = some f) (ho : OwnsRequest p o) :
    OwnsRequest p f := by
  unfold take0 at h
  split at h <;> cases h
  exact ho

theorem take1_owns {p : Port} {bs : List Byte} {o : Nat → Owner} {f : Owner} (h : take1 bs o = some f)
    (ho : ∀ a, OwnsRequest p (o a)) : OwnsRequest p f := by
  unfold take1 at h
  split at h <;> cases h
  exact ho _

theorem take2_owns {p : Port} {w v : Nat} {bs : List Byte} {o : Nat → Nat → Owner} {f : Owner}
    (h : take2 w v bs o = some f) (ho : ∀ a b, OwnsRequest p (o a b)) : OwnsRequest p f := by
  unfold take2 at h
  split at h <;> cases h
  exact ho _ _

theorem take3_owns {p : Port} {u v w : Nat} {bs : List Byte} {o : Nat → Nat → Nat → Owner} {f : Owner}
    (h : take3 u v w bs o = some f) (ho : ∀ a b c, OwnsRequest p (o a b c)) : OwnsRequest p f := by
  unfold take3 at h
  split at h <;> cases h
  exact ho _ _ _

theorem take4_owns {p : Port} {bs : List Byte} {o : Nat → Nat → Nat → Nat → Owner} {f : Owner}
    (h : take4 bs o = some f) (ho : ∀ a b c d, OwnsRequest p (o a b c d)) : OwnsRequest p f := by
  unfold take4 at h
  split at h <;> cases h
  exact ho _ _ _ _

theorem take5_owns {p : Port} {ws : List Nat} {bs : List Byte} {o : Nat → Nat → Nat → Nat → Nat → Owner}
    {f : Owner} (h : take5 ws bs o = some f) (ho : ∀ a b c d e, OwnsRequest p (o a b c d e)) : OwnsRequest p f := by
  unfold take5 at h
  split at h <;> cases h
  exact ho _ _ _ _ _

theorem takeSetProfile_owns {p : Port} {bs : List Byte} {f : Owner} (h : takeSetProfile bs = some f) :
    OwnsRequest p f := by
  unfold takeSetProfile at h
  split at h <;> cases h
  exact ⟨.setProfile .., rfl⟩

theorem takeSetSection_owns {p : Port} {bs : List Byte} {f : Owner} (h : takeSetSection p bs = some f) :
    OwnsRequest p f := by
  unfold takeSetSection at h
  split at h <;> cases h
  exact ⟨.setSection .., rfl⟩

theorem takeSetWatch_owns {p : Port} {bs : List Byte} {f : Owner} (h : takeSetWatch bs = some f) :
    OwnsRequest p f := by
  unfold takeSetWatch at h
  split at h <;> cases h
  exact ⟨.setWatch .., rfl⟩

theorem takeAddCue_owns {p : Port} {bs : List Byte} {f : Owner} (h : takeAddCue bs = some f) : OwnsRequest p f := by
  unfold takeAddCue at h
  split at h <;> cases h
  exact ⟨.addCue .., rfl⟩

theorem takeDriveLine_owns {p : Port} {bs : List Byte} {f : Owner} (h : takeDriveLine bs = some f) :
    OwnsRequest p f := by
  unfold takeDriveLine at h
  split at h
  · obtain ⟨d, -, rfl⟩ := Option.map_eq_some_iff.mp h
    exact ⟨.driveLine p _ d, rfl⟩
  · cases h

theorem takeFaderLaw_owns {p : Port} {bs : List Byte} {f : Owner} (h : takeFaderLaw bs = some f) :
    OwnsRequest p f := by
  obtain ⟨entries, -, rfl⟩ := Option.map_eq_some_iff.mp h
  exact ⟨.setFaderLaw p entries, rfl⟩

/-- Every owner of the catalogue is that of a request of the port. -/
theorem catalogue_owns {p : Port} {code : Byte} {bs : List Byte} {f : Owner}
    (h : catalogue p code bs = some (some f)) : OwnsRequest p f := by
  unfold catalogue at h
  split at h <;> simp only [Option.some.injEq, reduceCtorEq] at h
  · exact take1_owns h fun n => ⟨.screenOn p n, rfl⟩
  · exact take1_owns h fun n => ⟨.screenOff p n, rfl⟩
  · exact take1_owns h fun n => ⟨.forceFallback p n, rfl⟩
  · exact take1_owns h fun n => ⟨.resume p n, rfl⟩
  · exact take1_owns h fun n => ⟨.getScreen p n, rfl⟩
  · exact take1_owns h fun n => ⟨.getLink p n, rfl⟩
  · exact takeSetProfile_owns h
  · exact take4_owns h fun n c sel link => ⟨.setSource p n c sel link, rfl⟩
  · exact take1_owns h fun n => ⟨.getProfile p n, rfl⟩
  · exact take3_owns h fun n level length => ⟨.setLevel p n level length, rfl⟩
  · exact take1_owns h fun n => ⟨.mute p n, rfl⟩
  · exact take1_owns h fun n => ⟨.unmute p n, rfl⟩
  · exact takeFaderLaw_owns h
  · exact take0_owns h ⟨.getFaderLaw p, rfl⟩
  · exact take3_owns h fun n origin slot => ⟨.openDraft p n origin slot, rfl⟩
  · exact takeSetSection_owns h
  · exact take5_owns h fun n c trim delay invert => ⟨.setChannel p n c trim delay invert, rfl⟩
  · exact take1_owns h fun n => ⟨.commit p n, rfl⟩
  · exact take1_owns h fun n => ⟨.abandon p n, rfl⟩
  · exact take1_owns h fun n => ⟨.getDraft p n, rfl⟩
  · exact take1_owns h fun n => ⟨.readBank p n, rfl⟩
  · exact take3_owns h fun slot n tag => ⟨.saveLibrary p slot n tag, rfl⟩
  · exact take1_owns h fun slot => ⟨.eraseSlot p slot, rfl⟩
  · exact take0_owns h ⟨.getLibrary p, rfl⟩
  · exact take1_owns h fun n => ⟨.getMemory p n, rfl⟩
  · exact take1_owns h fun n => ⟨.readMeters p n, rfl⟩
  · exact takeSetWatch_owns h
  · exact take1_owns h fun shift => ⟨.setMeterRelease p shift, rfl⟩
  · exact take3_owns h fun kind severity action => ⟨.setSeverity p kind severity action, rfl⟩
  · exact take2_owns h fun severity mask => ⟨.setRoute p severity mask, rfl⟩
  · exact take1_owns h fun severity => ⟨.setSnapshotLevel p severity, rfl⟩
  · exact take5_owns h fun line mode threshold scopes follow => ⟨.setLine p line mode threshold scopes follow, rfl⟩
  · exact take1_owns h fun line => ⟨.clearLineLatch p line, rfl⟩
  · split at h <;> cases h
    exact ⟨.readActive p _, rfl⟩
  · exact take3_owns h fun kind scope index => ⟨.ackAlarm p kind scope index, rfl⟩
  · split at h <;> cases h
    exact ⟨.readLog p _, rfl⟩
  · exact take1_owns h fun n => ⟨.readSnapshot p n, rfl⟩
  · exact take1_owns h fun n => ⟨.releaseSnapshot p n, rfl⟩
  · exact takeAddCue_owns h
  · exact take2_owns h fun n id => ⟨.removeCue p n id, rfl⟩
  · exact take1_owns h fun n => ⟨.clearCues p n, rfl⟩
  · exact take2_owns h fun n start => ⟨.listCues p n start, rfl⟩
  · exact take2_owns h fun n value => ⟨.cueEnable p n value, rfl⟩
  · exact takeDriveLine_owns h
  · exact take5_owns h fun e present address width verify => ⟨.setExpander p e present address width verify, rfl⟩
  · exact take3_owns h fun e mask values => ⟨.relayWrite p e mask values, rfl⟩
  · exact take0_owns h ⟨.getExpander p, rfl⟩
  · exact take0_owns h ⟨.getStatus p, rfl⟩
  · exact take0_owns h ⟨.resetPart p, rfl⟩

/-- What becomes of a held request is a refusal or the request of an owner of the catalogue (R183 steps 1 to 4). -/
theorem ownerOf_cases (p : Port) (r : HeldRequest) :
    (∃ st, ownerOf p r = refuse st) ∨ OwnsRequest p (ownerOf p r) := by
  unfold ownerOf
  split
  · exact .inl ⟨_, rfl⟩
  · split
    · exact .inl ⟨_, rfl⟩
    · exact .inl ⟨_, rfl⟩
    · next h => exact .inr (catalogue_owns h)

/-- The arbiter's grant does nothing, or serves a port with a refusal or with the owner of one of its requests (R183). -/
theorem grantRequest_cases (s : State) :
    grantRequest s = s
    ∨ ∃ p f, grantRequest s = servePort p f s ∧ ((∃ st, f = refuse st) ∨ OwnsRequest p f) := by
  unfold grantRequest
  repeat' split
  · exact .inr ⟨_, _, rfl, ownerOf_cases _ _⟩
  · exact .inl rfl
  · exact .inl rfl

end Sys2Proof.Machine
end

section
/-! PROOF. O3: the house period count over every command. -/

namespace Sys2Proof.Machine

open Sys2Proof

/-! ### What a command can do to the part as a whole -/

/-- A command behind the reset line keeps the part as a whole when its work does. -/
theorem whenRunning_keepsSystem {s u t : State} (h : whenRunning s u = .next t) (hu : SystemKept s u) :
    SystemKept s t := by
  rcases whenRunning_next s u with hs | hr
  · cases hs.symm.trans h
    exact ⟨rfl, rfl⟩
  · cases hr.symm.trans h
    exact hu

/-- The events that reach the part as a whole: the full resets, the release of the reset line, the house period boundary,
and the arbiter's grant, which may serve a RESET_PART. -/
def reachesSystem : Instr → Bool
  | .powerOnReset | .lineReset | .resetLineRelease _ _ _ | .housePeriodBoundary _ _ | .requestArbiterGrant => true
  | _ => false

/-- Every other event leaves the part as a whole and the queue of commands as they are. -/
theorem exec_event_keepsSystem {c : Instr} {s t : State} (hc : requestOwner c = none) (hr : reachesSystem c = false)
    (h : exec c s = .next t) : SystemKept s t := by
  cases c with
  -- one operation, or one update of a block
  | draftExpiry n => exact whenRunning_keepsSystem h (expireDraft_keepsSystem n s)
  | memoryBusGrant => exact whenRunning_keepsSystem h (grantBus_keepsSystem s)
  | libraryEntryStart => exact whenRunning_keepsSystem h (startEntry_keepsSystem s)
  | pulseRelease | clockHoldEnd | syncWordFound | requestFrame | readFrame | readFrameEnd =>
    exact whenRunning_keepsSystem h ⟨rfl, rfl⟩
  -- one operation, if its occasion is there
  | acquisitionTimeout | offQuietTimeout | stretchTimeout | prechargeDone | initRefreshDone | modeSetDone
  | refreshIntervalExpiry | refreshComplete | ringTransferComplete | libraryBurstComplete | linkStateReport
  | periodStart | linkLoss | causeAddition | causeRemoval | alarmRaise | alarmAbsence | cueHold | loadOutcomeReport
  | relayTransactionStart | relayStartCondition | relayDataByte | relayReadByte | recoveryPulse =>
    exact whenRunning_keepsSystem h (by split <;> simp)
  -- one operation, behind two tests
  | packetArrival | periodEnd | sectionStageComplete | positionAdvance | relayAddressByte | relayReadAddress
  | relayStopCondition =>
    refine whenRunning_keepsSystem h ?_
    repeat' split
    all_goals simp
  | powerOnReset | lineReset | resetLineRelease | housePeriodBoundary | requestArbiterGrant => cases hr
  | _ => cases hc

/-- A service of a port leaves of the part as a whole what the owner leaves. -/
theorem servePort_keepsSystem (p : Port) {f : Owner} (hf : ∀ s, SystemKept s (f s).1) (s : State) :
    SystemKept s (servePort p f s) := hf (takeHeld p s)

/-- RESET_PART's owner sets the count to 0 (R1, R187). -/
theorem servePort_resetPart_housePeriods (p : Port) (s : State) :
    (servePort p ownerResetPart s).system.housePeriods = 0 := rfl

/-- A request other than RESET_PART leaves the part as a whole and the queue of commands as they are. -/
theorem exec_request_keepsSystem {c : Instr} {p : Port} {f : Owner} {s t : State}
    (hc : requestOwner c = some (p, f)) (hp : c ≠ .resetPart p) (h : exec c s = .next t) : SystemKept s t :=
  whenRunning_keepsSystem (exec_request hc s ▸ h) (servePort_keepsSystem p (requestOwner_keepsSystem hc hp) s)

/-! ### The house period count (R1) -/

/-- The count is as before, or 0. -/
def CountKeptOrZero (s t : State) : Prop :=
  t.system.housePeriods = s.system.housePeriods ∨ t.system.housePeriods = 0

theorem SystemKept.countKeptOrZero {s t : State} (h : SystemKept s t) : CountKeptOrZero s t :=
  .inl (congrArg System.housePeriods h.1)

theorem whenRunning_countKeptOrZero {s u t : State} (h : whenRunning s u = .next t) (hu : CountKeptOrZero s u) :
    CountKeptOrZero s t := by
  rcases whenRunning_next s u with hs | hr
  · cases hs.symm.trans h
    exact .inl rfl
  · cases hr.symm.trans h
    exact hu

/-- A request's service keeps the count, or is a RESET_PART's, which sets it to 0. -/
theorem servePort_countKeptOrZero {p : Port} {f : Owner} (h : OwnsRequest p f) (s : State) :
    CountKeptOrZero s (servePort p f s) := by
  obtain ⟨c, hc⟩ := h
  by_cases hp : c = .resetPart p
  · subst hp
    cases hc
    exact .inr (servePort_resetPart_housePeriods p s)
  · exact (servePort_keepsSystem p (requestOwner_keepsSystem hc hp) s).countKeptOrZero

/-- The arbiter's grant keeps the count, or serves a RESET_PART. -/
theorem grantRequest_countKeptOrZero (s : State) : CountKeptOrZero s (grantRequest s) := by
  rcases grantRequest_cases s with h | ⟨p, f, h, ⟨st, rfl⟩ | hf⟩ <;> rw [h]
  · exact .inl rfl
  · exact (servePort_keepsSystem p (refuse_keepsSystem st) s).countKeptOrZero
  · exact servePort_countKeptOrZero hf s

/-- The release of the reset line leaves the count (R186). -/
theorem execResetLineRelease_housePeriods {lowA lowB lowC : Bool} {s t : State}
    (h : execResetLineRelease lowA lowB lowC s = .next t) : t.system.housePeriods = s.system.housePeriods := by
  unfold execResetLineRelease at h
  split at h <;> cases h <;> rfl

/-- A house period boundary raises the count by 1, modulo 2^32 by the word's width. -/
theorem houseBoundary_housePeriods (b : Vector (PinSample × PinSample) 48) (low : Bool) (s : State) :
    (houseBoundary b low s).system.housePeriods = s.system.housePeriods + 1 :=
  congrArg System.housePeriods (houseBoundary_keepsSystem b low s).1

/-- No command but the boundary moves the count other than to 0, and only a reset or the arbiter's grant does that. -/
theorem exec_housePeriods {c : Instr} {s t : State} (h : exec c s = .next t)
    (hb : ∀ b low, c ≠ .housePeriodBoundary b low) :
    t.system.housePeriods = s.system.housePeriods
    ∨ t.system.housePeriods = 0
      ∧ (c = .powerOnReset ∨ c = .lineReset ∨ (∃ p, c = .resetPart p) ∨ c = .requestArbiterGrant) := by
  cases hc : requestOwner c with
  | some request =>
    obtain ⟨p, f⟩ := request
    by_cases hp : c = .resetPart p
    · rw [exec_request hc] at h
      exact (whenRunning_countKeptOrZero h (servePort_countKeptOrZero ⟨c, hc⟩ s)).imp_right
        fun zero => ⟨zero, .inr (.inr (.inl ⟨p, hp⟩))⟩
    · exact .inl (congrArg System.housePeriods (exec_request_keepsSystem hc hp h).1)
  | none =>
    cases hr : reachesSystem c with
    | false => exact .inl (congrArg System.housePeriods (exec_event_keepsSystem hc hr h).1)
    | true =>
      cases c with
      | powerOnReset =>
        cases h
        exact .inr ⟨rfl, .inl rfl⟩
      | lineReset =>
        cases h
        exact .inr ⟨rfl, .inr (.inl rfl)⟩
      | resetLineRelease lowA lowB lowC => exact .inl (execResetLineRelease_housePeriods h)
      | housePeriodBoundary b low => exact absurd rfl (hb b low)
      | requestArbiterGrant =>
        exact (whenRunning_countKeptOrZero h (grantRequest_countKeptOrZero s)).imp_right
          fun zero => ⟨zero, .inr (.inr (.inr rfl))⟩
      | _ => cases hr

/-- Settles O3: the resets and the boundary compute their counts, and every other command is a request or an event of
the blocks, whose operations leave the part as a whole as it is. -/
theorem houseCountRisesAtBoundaries : Obligations.HouseCountRisesAtBoundaries := by
  refine ⟨fun s => ⟨_, rfl, rfl⟩, fun s => ⟨_, rfl, rfl⟩, fun p s hs => ?_, fun b low s hs => ?_, ?_⟩
  · exact ⟨_, whenRunning_running hs _, servePort_resetPart_housePeriods p s⟩
  · exact ⟨_, whenRunning_running hs _, houseBoundary_housePeriods b low s⟩
  · exact fun c s t h hb => exec_housePeriods h hb

end Sys2Proof.Machine
end

section
/-! PROOF. O37: the arithmetic of the chain, the settling of a delay, and the bounds of the steering. -/

namespace Sys2Proof.Machine

open Sys2Proof

/-! ### Saturation -/

theorem saturate_mem {low high : Int} (h : low ≤ high) (x : Int) :
    low ≤ saturate low high x ∧ saturate low high x ≤ high := by
  unfold saturate
  omega

theorem saturate_of_mem {low high x : Int} (hl : low ≤ x) (hh : x ≤ high) : saturate low high x = x := by
  unfold saturate
  omega

theorem toInternal_mem (x : Int) : -134217728 ≤ toInternal x ∧ toInternal x ≤ 134217727 :=
  saturate_mem (by decide) x

theorem toOutput_mem (x : Int) : -8388608 ≤ toOutput x ∧ toOutput x ≤ 8388607 :=
  saturate_mem (by decide) x

/-- A value of the internal range passes its saturation, and does not mark CLIP. -/
theorem toInternal_of_mem {x : Int} (hx : -134217728 ≤ x ∧ x ≤ 134217727) : toInternal x = x :=
  saturate_of_mem hx.1 hx.2

/-! ### Sections (R60, R61) -/

/-- One sample of a section, and the rest of the run from the history it leaves. -/
theorem runSection_cons (f : Section) (h : History) (x : Sample) (xs : Samples) :
    runSection f h (x :: xs)
      = (toInternal (sectionRaw f h x) :: (runSection f (sectionNext f h x) xs).1,
        (runSection f (sectionNext f h x) xs).2.1,
        clipsInternal (sectionRaw f h x) || (runSection f (sectionNext f h x) xs).2.2) := rfl

theorem runSection_length (f : Section) (h : History) (xs : Samples) : (runSection f h xs).1.length = xs.length := by
  induction xs generalizing h with
  | nil => rfl
  | cons x xs ih => simp [runSection_cons, ih]

theorem runSection_mem_internal (f : Section) (h : History) (xs : Samples) :
    ∀ y ∈ (runSection f h xs).1, -134217728 ≤ y ∧ y ≤ 134217727 := by
  induction xs generalizing h with
  | nil => intro y hy; cases hy
  | cons x xs ih =>
    intro y hy
    rw [runSection_cons] at hy
    rcases List.mem_cons.mp hy with rfl | hrest
    · exact toInternal_mem _
    · exact ih _ y hrest

/-- A section that passes its values: b0 is one on the coefficient scale, and the other coefficients are 0. -/
def UnitySection (f : Section) : Prop := f.b0 = 16777216 ∧ f.b1 = 0 ∧ f.b2 = 0 ∧ f.a1 = 0 ∧ f.a2 = 0

theorem sectionRaw_unity {f : Section} (hf : UnitySection f) (h : History) (x : Sample) : sectionRaw f h x = x := by
  obtain ⟨hb0, hb1, hb2, ha1, ha2⟩ := hf
  have hsum : sectionSum f h x = 16777216 * x := by simp [sectionSum, hb0, hb1, hb2, ha1, ha2]
  rw [sectionRaw, hsum, Int.fdiv_eq_ediv_of_nonneg _ (by decide)]
  omega

theorem runSection_unity {f : Section} (hf : UnitySection f) (h : History) (xs : Samples)
    (hxs : ∀ x ∈ xs, -134217728 ≤ x ∧ x ≤ 134217727) :
    (runSection f h xs).1 = xs ∧ (runSection f h xs).2.2 = false := by
  induction xs generalizing h with
  | nil => exact ⟨rfl, rfl⟩
  | cons x xs ih =>
    obtain ⟨hvalues, hclip⟩ := ih (sectionNext f h x) fun y hy => hxs y (List.mem_cons_of_mem x hy)
    have hx : toInternal x = x := toInternal_of_mem (hxs x List.mem_cons_self)
    simp [runSection_cons, sectionRaw_unity hf, clipsInternal, hvalues, hclip, hx]

theorem applySection_unused {r : ChannelRecord} {k : Fin 12} (h : r.sections[k].inUse = false) (acc : StageResult) :
    applySection r k acc = acc := by
  unfold applySection
  rw [h]
  rfl

/-- A section in use runs over the values from its own history. -/
theorem applySection_used {r : ChannelRecord} {k : Fin 12} (h : r.sections[k].inUse = true) (acc : StageResult) :
    applySection r k acc =
      { values := (runSection r.sections[k] acc.histories[k] acc.values).1
        histories := update acc.histories k fun _ => (runSection r.sections[k] acc.histories[k] acc.values).2.1
        clip := acc.clip || (runSection r.sections[k] acc.histories[k] acc.values).2.2 } := by
  unfold applySection
  rw [h]
  rfl

/-- An update of a row leaves the others. -/
theorem othersKept_update {α : Type} {n : Nat} (i : Fin n) (v : Vector α n) (f : α → α) :
    OthersKept i v (update v i f) :=
  fun j hj => getElem_update_ne v i j f hj

/-! ### The fade (R65) -/

/-- A product over 48 by a factor of at most 48 is no greater in magnitude than the value. -/
theorem natAbs_tdiv_48_le (x k : Int) (hk : k.natAbs ≤ 48) : (Int.tdiv (x * k) 48).natAbs ≤ x.natAbs := by
  rw [Int.natAbs_tdiv, Int.natAbs_mul]
  exact Nat.div_le_of_le_mul (by rw [Nat.mul_comm]; exact Nat.mul_le_mul_right _ hk)

theorem natAbs_fadeSample_le (f : Fade) {i : Nat} (hi : i < 48) (x : Sample) :
    (fadeSample f i x).natAbs ≤ x.natAbs := by
  cases f with
  | none => exact Nat.le_refl _
  | fadeOut => exact natAbs_tdiv_48_le x _ (by omega)
  | fadeIn => exact natAbs_tdiv_48_le x _ (by omega)

/-- A fade in ends at the value. -/
theorem fadeSample_fadeIn_last (x : Sample) : fadeSample .fadeIn 47 x = x :=
  Int.mul_tdiv_cancel x (by decide)

/-- A fade out ends at 0. -/
theorem fadeSample_fadeOut_last (x : Sample) : fadeSample .fadeOut 47 x = 0 := by
  simp [fadeSample]

/-! ### The stages after the ring (R67, R75, R76) -/

theorem outputStage_getElem? (fade : Fade) (invert : Bool) (g : Nat) (vs : Samples) {i : Nat} (hi : i < 48) :
    (outputStage fade invert g vs).1[i]? = some (outputSample fade invert g i (vs.getD i 0)).1 := by
  simp [outputStage, hi]

theorem outputStage_clips_iff (fade : Fade) (invert : Bool) (g : Nat) (vs : Samples) :
    (outputStage fade invert g vs).2 = true
      ↔ ∃ i, i < 48 ∧ (outputSample fade invert g i (vs.getD i 0)).2 = true := by
  simp [outputStage]

theorem outputStage_outputSamples (fade : Fade) (invert : Bool) (g : Nat) (vs : Samples) :
    OutputSamples (outputStage fade invert g vs).1 := by
  refine ⟨by simp [outputStage], fun y hy => ?_⟩
  obtain ⟨r, hr, rfl⟩ := List.mem_map.mp hy
  obtain ⟨i, -, rfl⟩ := List.mem_map.mp hr
  exact toOutput_mem _

/-! ### The steering (R50 to R52) -/

theorem slew_moves_at_most_4 (index target : Int) : (slew index target - index).natAbs ≤ 4 := by
  obtain ⟨hl, hh⟩ := saturate_mem (show (-4 : Int) ≤ 4 by decide) (target - index)
  unfold slew
  omega

/-- A slewed index stays in a range that holds the index and its target. -/
theorem slew_mem {low high index target : Int} (hi : low ≤ index ∧ index ≤ high) (ht : low ≤ target ∧ target ≤ high) :
    low ≤ slew index target ∧ slew index target ≤ high := by
  unfold slew saturate
  omega

/-- The difference over the sum is at most one in magnitude, so a target is at most 64. -/
theorem steeringTarget_mem (a b : Nat) : -64 ≤ steeringTarget a b ∧ steeringTarget a b ≤ 64 := by
  unfold steeringTarget
  split
  · decide
  · have hmag : (Int.tdiv (64 * ((a : Int) - b)) ((a : Int) + b)).natAbs ≤ 64 := by
      rw [Int.natAbs_tdiv]
      exact Nat.div_le_of_le_mul (by omega)
    omega

theorem steeringTarget_self (a : Nat) : steeringTarget a a = 0 := by
  simp [steeringTarget]

/-! ### The four parts of O37 -/

theorem chainFollowsItsFormulas : ChainFollowsItsFormulas := by
  refine ⟨fun _ _ => rfl, fun _ _ _ _ => rfl,
    fun f h xs hb0 hb1 hb2 ha1 ha2 => runSection_unity ⟨hb0, hb1, hb2, ha1, ha2⟩ h xs,
    fun r k acc h => applySection_unused h acc, fun r k acc h => ?_, fun _ _ _ => rfl, fun _ _ => ⟨rfl, rfl⟩,
    fun _ _ _ => rfl, fun _ _ _ _ _ => rfl,
    fun fade invert g vs => ⟨fun _ hi => outputStage_getElem? fade invert g vs hi, outputStage_clips_iff fade invert g vs⟩⟩
  rw [applySection_used h]
  exact ⟨rfl, rfl, getElem_update_self acc.histories k _, othersKept_update k acc.histories _⟩

theorem chainStaysInRange : ChainStaysInRange :=
  ⟨fun f h xs => ⟨runSection_length f h xs, runSection_mem_internal f h xs⟩,
    fun x => ⟨rfl, fadeSample_fadeIn_last x, fadeSample_fadeOut_last x⟩,
    fun f _ x hi => natAbs_fadeSample_le f hi x, outputStage_outputSamples⟩

/-- R64: with no pending target a new bank delay starts a fade out toward it; with one, the bank delay is the target, or
the delay in use again, or a third delay. -/
theorem delaySlewsThroughSilence : DelaySlewsThroughSilence := by
  intro d ch
  refine ⟨fun ht hd => ?_, fun ht hd => ?_, fun ht => ?_, fun t ht hdt hd => ?_, fun t ht hdt hd => ?_⟩
  · simp [settleDelay, ht, hd]
  · simp [settleDelay, ht, hd]
  · simp [settleDelay, ht]
  · simp [settleDelay, ht, hdt, ← hd]
  · simp [settleDelay, ht, hdt, hd]

theorem steeringStaysBounded : SteeringStaysBounded :=
  ⟨fun _ _ _ => ⟨slew_moves_at_most_4 _ _, slew_moves_at_most_4 _ _⟩, steeringTarget_mem,
    fun _ _ _ hl hh => slew_mem ⟨hl, hh⟩ (steeringTarget_mem _ _),
    fun _ _ _ hl hh => slew_mem ⟨hl, hh⟩ (steeringTarget_mem _ _), steeringTarget_self⟩

/-- Settles O37: the formulas of the chain are the model's own, unfolded; the ranges come from the saturation that ends
each stage, from the fade's factor of at most 48 in 48, and from the slew between an index and its target. -/
theorem engineStagesStayInRange : Obligations.EngineStagesStayInRange :=
  ⟨chainFollowsItsFormulas, chainStaysInRange, delaySlewsThroughSilence, steeringStaysBounded⟩

end Sys2Proof.Machine
end

section
/-! PROOF. O39: SET_PROFILE and SET_SOURCE on an OFF screen and on a screen in service. -/

namespace Sys2Proof.Machine

open Sys2Proof

/-! ### Codes (R191) -/

theorem modeOf_eq_some (mode : Fin 2) :
    modeOf mode.val = some (if mode.val = 0 then .discrete else .matrix) := by
  match mode with
  | 0 => rfl
  | 1 => rfl

theorem modeOf_eq_none {mode : Nat} (h : 1 < mode) : modeOf mode = none := by
  match mode, h with
  | n + 2, _ => rfl

theorem selectorOf_of_selectorCode {code link : Nat} {sel : Selector} (h : SelectorCode code link sel) :
    selectorOf code link = some sel := by
  rcases h with ⟨rfl, rfl⟩ | ⟨i, rfl, rfl, rfl⟩ | ⟨rfl, rfl⟩ | ⟨rfl, rfl⟩ | ⟨rfl, rfl⟩ | ⟨rfl, rfl⟩
  case inr.inl => simp [selectorOf]
  all_goals rfl

theorem selectorOf_eq_none {code link : Nat} (h : 5 < code ∨ code = 1 ∧ 16 ≤ link) : selectorOf code link = none := by
  rcases h with h | ⟨rfl, h⟩
  · match code, h with
    | n + 6, _ => rfl
  · simp [selectorOf, Nat.not_lt.mpr h]

/-! ### A profile change (R40, R44) -/

/-- The change `f` of screen `n`'s profile takes `s` to `t`: in effect at once on an OFF screen, and otherwise made on the
staged profile, with the screen's mark set. Nothing else changes. -/
structure ProfileChanged (n : Fin 8) (f : Profile → Profile) (s t : State) : Prop where
  frame : t = { s with screens := t.screens, decoder := t.decoder }
  otherScreens : OthersKept n s.screens t.screens
  otherRecords : OthersKept n s.decoder t.decoder
  atOnce : s.screens[n].state = .off →
    t.screens = s.screens ∧ t.decoder[n] = putInEffect s.decoder[n] (f s.decoder[n].profile)
  staged : s.screens[n].state ≠ .off →
    t.screens[n] = { s.screens[n] with profileMark := true }
    ∧ t.decoder[n] = { s.decoder[n] with staged := some (f (s.decoder[n].staged.getD s.decoder[n].profile)) }

theorem isOff_eq_true_iff (n : Fin 8) (s : State) : isOff n s = true ↔ s.screens[n].state = .off := by
  simp [isOff]

theorem changeProfile_off {n : Fin 8} {s : State} (h : s.screens[n].state = .off) (f : Profile → Profile)
    (mark : ScreenContext → ScreenContext) :
    changeProfile n f mark s = onDecoder n (fun d => putInEffect d (f d.profile)) s :=
  if_pos ((isOff_eq_true_iff n s).mpr h)

theorem changeProfile_inService {n : Fin 8} {s : State} (h : s.screens[n].state ≠ .off) (f : Profile → Profile)
    (mark : ScreenContext → ScreenContext) :
    changeProfile n f mark s
      = onScreen n mark (onDecoder n (fun d => { d with staged := some (f (d.staged.getD d.profile)) }) s) :=
  if_neg fun hoff => h ((isOff_eq_true_iff n s).mp hoff)

theorem changeProfile_changed (n : Fin 8) (f : Profile → Profile) (s : State) :
    ProfileChanged n f s (changeProfile n f markProfile s) := by
  by_cases h : s.screens[n].state = .off
  · rw [changeProfile_off h]
    exact ⟨rfl, fun _ _ => rfl, othersKept_update n _ _, fun _ => ⟨rfl, getElem_update_self _ n _⟩,
      fun hne => absurd h hne⟩
  · rw [changeProfile_inService h]
    exact ⟨rfl, othersKept_update n _ _, othersKept_update n _ _, fun hoff => absurd hoff h,
      fun _ => ⟨getElem_update_self _ n _, getElem_update_self _ n _⟩⟩

/-- A profile change does not touch the Port Interface, and does not read it. -/
theorem changeProfile_withPort (n : Fin 8) (f : Profile → Profile) (mark : ScreenContext → ScreenContext) (s : State)
    (q : PortInterface) :
    changeProfile n f mark { s with port := q } = { changeProfile n f mark s with port := q } := by
  by_cases h : s.screens[n].state = .off
  · rw [changeProfile_off h, changeProfile_off (s := { s with port := q }) h]
    rfl
  · rw [changeProfile_inService h, changeProfile_inService (s := { s with port := q }) h]
    rfl

/-- A request whose owner makes a profile change ends with the change made and its response placed. -/
theorem servePort_changeProfile {p : Port} {owner : State → State × Reply} {n : Fin 8} {f : Profile → Profile}
    {rep : Reply} {s : State}
    (h : owner (takeHeld p s) = (changeProfile n f markProfile (takeHeld p s), rep)) :
    servePort p owner s = { changeProfile n f markProfile s with port := answeredPorts p rep s.port } := by
  have hq := changeProfile_withPort n f markProfile s (takeHeld p s).port
  rw [← takeHeld_eq] at hq
  rw [hq] at h
  rw [servePort_eq h rfl]

/-! ### The owners (R41, R42) -/

/-- The fields SET_PROFILE names, over a profile; a depth above 8 is taken as 8. -/
def namedProfile (tag : Nat) (mode : DecodeMode) (lt rt : Fin 16) (depth : Nat) (auto : Bool) (q : Profile) : Profile :=
  { q with tag := tag, mode := mode, lt := lt, rt := rt, depth := min depth 8, autoReturn := auto }

/-- The table entry SET_SOURCE names, over a profile. -/
def sourcedProfile (c : Fin 16) (sel : Selector) (q : Profile) : Profile :=
  { q with table := update q.table c fun _ => sel }

theorem profileStatus_eq (n : Fin 8) (s : State) :
    profileStatus n s = if s.screens[n].state = .off then .ok else .accepted := by
  simp [profileStatus, isOff]

theorem ownerSetProfile_taken (n : Fin 8) {tag : Nat} (mode auto : Fin 2) {lt rt : Fin 16} (depth : Nat) (s : State)
    (htag : tag ≤ 255) (hne : lt ≠ rt) :
    ownerSetProfile n.val tag mode.val lt.val rt.val depth auto.val s =
      (changeProfile n (namedProfile tag (if mode.val = 0 then .discrete else .matrix) lt rt depth (decide (auto.val = 1)))
          markProfile s,
        answerClamped (if s.screens[n].state = .off then .ok else .accepted) (decide (8 < depth))) := by
  have hargs : tag ≤ 255 ∧ lt.val < 16 ∧ rt.val < 16 ∧ lt.val ≠ rt.val ∧ isFlag auto.val = true :=
    ⟨htag, lt.isLt, rt.isLt, fun h => hne (Fin.ext h), decide_eq_true (by omega)⟩
  rw [ownerSetProfile, withScreen_inRange, modeOf_eq_some, ← profileStatus_eq]
  exact dif_pos hargs

theorem ownerSetProfile_refused (n : Fin 8) {tag mode lt rt auto : Nat} (depth : Nat)
    (h : 255 < tag ∨ 1 < mode ∨ 16 ≤ lt ∨ 16 ≤ rt ∨ lt = rt ∨ 1 < auto) :
    ownerSetProfile n.val tag mode lt rt depth auto = refuse .badArgument := by
  funext s
  rw [ownerSetProfile, withScreen_inRange]
  cases hm : modeOf mode with
  | none => rfl
  | some m =>
    have hmode : ¬ 1 < mode := fun hlt => by rw [modeOf_eq_none hlt] at hm; cases hm
    refine dif_neg ?_
    rintro ⟨htag, hlt, hrt, hne, hauto⟩
    have hflag : auto ≤ 1 := of_decide_eq_true hauto
    omega

theorem ownerSetSource_taken (n : Fin 8) (c : Fin 16) {code link : Nat} {sel : Selector} (h : SelectorCode code link sel)
    (s : State) :
    ownerSetSource n.val c.val code link s =
      (changeProfile n (sourcedProfile c sel) markProfile s,
        answer (if s.screens[n].state = .off then .ok else .accepted) []) := by
  rw [ownerSetSource, withScreen_inRange, selectorOf_of_selectorCode h, ← profileStatus_eq]
  exact dif_pos c.isLt

theorem ownerSetSource_refused (n : Fin 8) {c code link : Nat} (h : 16 ≤ c ∨ 5 < code ∨ code = 1 ∧ 16 ≤ link) :
    ownerSetSource n.val c code link = refuse .badArgument := by
  funext s
  rw [ownerSetSource, withScreen_inRange]
  cases hs : selectorOf code link with
  | none => rfl
  | some sel =>
    have hc : 16 ≤ c := h.resolve_right fun hcode => by rw [selectorOf_eq_none hcode] at hs; cases hs
    exact dif_neg (Nat.not_lt.mpr hc)

/-- A profile put in effect drops the staged one, and the steering is at rest if the mode or the matrix pair differs
(R44). -/
theorem putInEffect_eq (d : DecoderRecord) (new : Profile) :
    putInEffect d new =
      { profile := new, staged := none
        steering := if new.mode ≠ d.profile.mode ∨ new.lt ≠ d.profile.lt ∨ new.rt ≠ d.profile.rt
          then { el := 0, er := 0, es := 0, ed := 0, lr := 0, fb := 0 } else d.steering } := by
  simp only [putInEffect, steeringOnChange, resetSteering, ne_comm]

/-- A new source table leaves the mode and the matrix pair, so the steering goes on. -/
theorem putInEffect_sourced (d : DecoderRecord) (c : Fin 16) (sel : Selector) :
    putInEffect d (sourcedProfile c sel d.profile)
      = { d with profile := sourcedProfile c sel d.profile, staged := none } := by
  simp [putInEffect_eq, sourcedProfile]

/-! ### The requests -/

theorem exec_setProfile_taken (p : Port) (n : Fin 8) {tag : Nat} (mode auto : Fin 2) {lt rt : Fin 16} (depth : Nat)
    {s : State} (hs : Running s) (htag : tag ≤ 255) (hne : lt ≠ rt) :
    exec (.setProfile p n.val tag mode.val lt.val rt.val depth auto.val) s = .next
      { changeProfile n
          (namedProfile tag (if mode.val = 0 then .discrete else .matrix) lt rt depth (decide (auto.val = 1)))
          markProfile s with
        port := answeredPorts p
          (answerClamped (if s.screens[n].state = .off then .ok else .accepted) (decide (8 < depth))) s.port } := by
  rw [exec_request rfl, whenRunning_running hs,
    servePort_changeProfile (ownerSetProfile_taken n mode auto depth (takeHeld p s) htag hne)]
  rfl

theorem exec_setSource_taken (p : Port) (n : Fin 8) (c : Fin 16) {code link : Nat} {sel : Selector} {s : State}
    (hs : Running s) (h : SelectorCode code link sel) :
    exec (.setSource p n.val c.val code link) s = .next
      { changeProfile n (sourcedProfile c sel) markProfile s with
        port := answeredPorts p (answer (if s.screens[n].state = .off then .ok else .accepted) []) s.port } := by
  rw [exec_request rfl, whenRunning_running hs, servePort_changeProfile (ownerSetSource_taken n c h (takeHeld p s))]
  rfl

/-- A request whose owner refuses it changes nothing but its port. -/
theorem exec_refused {i : Instr} {p : Port} {f : Owner} {st : Status} {s : State} (hi : requestOwner i = some (p, f))
    (hf : f = refuse st) (hs : Running s) :
    exec i s = .next { s with port := answeredPorts p (refusal st) s.port } := by
  rw [exec_request hi, hf, whenRunning_running hs, servePort_refuse]

/-- The table SET_SOURCE leaves names `sel` for its channel, and is otherwise as it was. -/
theorem sourcedProfile_table (c : Fin 16) (sel : Selector) (q : Profile) :
    (sourcedProfile c sel q).table[c] = sel ∧ OthersKept c q.table (sourcedProfile c sel q).table :=
  ⟨getElem_update_self q.table c _, othersKept_update c q.table _⟩

/-- Settles O39: a taken request is one profile change (`changeProfile_changed`) with its response placed, and a refused
one leaves all but its port. -/
theorem profileChangesTakeEffectOrAreStaged : Obligations.ProfileChangesTakeEffectOrAreStaged := by
  refine ⟨fun p n tag mode auto lt rt depth s hs htag hne => ?_, fun p n tag mode lt rt depth auto s hs h => ?_,
    fun p n c code link sel s hs h => ?_, fun p n c code link s hs h => ?_⟩
  · obtain ⟨hframe, hscreens, hrecords, hoff, hstaged⟩ := changeProfile_changed n
      (namedProfile tag (if mode.val = 0 then .discrete else .matrix) lt rt depth (decide (auto.val = 1))) s
    refine ⟨_, exec_setProfile_taken p n mode auto depth hs htag hne, ?_, hscreens, hrecords, fun h => ?_, hstaged⟩
    · rw [hframe]
      rfl
    · exact ⟨(hoff h).1, (hoff h).2.trans (putInEffect_eq _ _)⟩
  · exact exec_refused rfl (ownerSetProfile_refused n depth h) hs
  · obtain ⟨hframe, hscreens, hrecords, hoff, hstaged⟩ := changeProfile_changed n (sourcedProfile c sel) s
    refine ⟨_, exec_setSource_taken p n c hs h, ?_, hscreens, hrecords, fun h => ?_, fun h => ?_⟩
    · rw [hframe]
    · exact ⟨(hoff h).1, _, (hoff h).2.trans (putInEffect_sourced _ c sel), sourcedProfile_table c sel _⟩
    · exact ⟨(hstaged h).1, _, (hstaged h).2, sourcedProfile_table c sel _⟩
  · exact exec_refused rfl (ownerSetSource_refused n h) hs

end Sys2Proof.Machine
end

section
/-! PROOF. O40, O41: SET_LEVEL, MUTE, UNMUTE and SET_FADER_LAW. -/

namespace Sys2Proof.Machine

open Sys2Proof

/-! ### Requests whose action neither reads nor moves the Port Interface -/

/-- A request ends with its owner's action made and its response placed, when the action neither reads the Port
Interface nor moves it. -/
theorem servePort_action {p : Port} {owner : State → State × Reply} {f : State → State} {rep : Reply} {s : State}
    (hport : ∀ q, f { s with port := q } = { f s with port := q })
    (h : owner (takeHeld p s) = (f (takeHeld p s), rep)) :
    servePort p owner s = { f s with port := answeredPorts p rep s.port } := by
  rw [takeHeld_eq, hport] at h
  rw [servePort_eq (t := { f s with port := (takeHeld p s).port }) h rfl]

/-- The action of an owner that takes its request is what the request does, with the response placed. -/
theorem exec_action {i : Instr} {p : Port} {owner : Owner} {f : State → State} {rep : Reply} {s : State}
    (hi : requestOwner i = some (p, owner)) (hs : Running s)
    (hport : ∀ q, f { s with port := q } = { f s with port := q })
    (h : owner (takeHeld p s) = (f (takeHeld p s), rep)) :
    exec i s = .next { f s with port := answeredPorts p rep s.port } := by
  rw [exec_request hi, whenRunning_running hs, servePort_action hport h]

/-! ### The fader (R70) -/

/-- A level limited to 100 has its own entry in the law table. -/
theorem lawEntry_min (g : GainStage) (level : Nat) :
    ∃ k : Fin 101, k.val = min level 100 ∧ lawEntry g (min level 100) = g.law[k] :=
  ⟨Fin.ofNat 101 (min level 100), Nat.mod_eq_of_lt (by omega), rfl⟩

/-- With length 0 or on an OFF screen the fader moves at once, and a ramp in flight is dropped. -/
theorem setFader_levels_atOnce {n : Fin 8} {length : Nat} {s : State} (level : Nat)
    (h : length = 0 ∨ s.screens[n].state = .off) :
    (setFader n level length s).gain.levels[n] =
      { s.gain.levels[n] with level := min level 100, gain := lawEntry s.gain (min level 100), ramp := none } := by
  have hcond : (isOff n s || min length Config.maxRamp = 0) = true := by
    rcases h with rfl | hoff
    · simp
    · simp [(isOff_eq_true_iff n s).mpr hoff]
  exact (getElem_update_self s.gain.levels n _).trans (if_pos hcond)

/-- On a screen in service a fader move of a length above 0 is a ramp from the present gain. -/
theorem setFader_levels_ramp {n : Fin 8} {length : Nat} {s : State} (level : Nat) (hlength : 0 < length)
    (hservice : s.screens[n].state ≠ .off) :
    (setFader n level length s).gain.levels[n] =
      { s.gain.levels[n] with
        level := min level 100
        ramp := some { start := s.gain.levels[n].gain, target := lawEntry s.gain (min level 100)
                       length := min length 60000, done := 0 } } := by
  have hoff : isOff n s = false := decide_eq_false hservice
  have hcond : ¬(isOff n s || min length Config.maxRamp = 0) = true := by
    simp [hoff, Config.maxRamp, Nat.ne_of_gt hlength]
  exact (getElem_update_self s.gain.levels n _).trans (if_neg hcond)

theorem exec_setLevel (p : Port) (n : Fin 8) (level length : Nat) {s : State} (hs : Running s) :
    exec (.setLevel p n.val level length) s = .next
      { setFader n level length s with
        port := answeredPorts p (answerClamped .ok (decide (100 < level ∨ 60000 < length))) s.port } := by
  rw [Bool.decide_or]
  exact exec_action (f := setFader n level length) rfl hs (fun _ => rfl) (withScreen_inRange n _ _)

/-! ### The mute (R72) -/

theorem setMute_levels (n : Fin 8) (muted : Bool) (s : State) :
    (setMute n muted s).gain.levels[n] =
      { s.gain.levels[n] with
        muted := muted
        factor := if s.screens[n].state = .off then muteTarget muted else s.gain.levels[n].factor } := by
  simp only [← isOff_eq_true_iff]
  exact getElem_update_self s.gain.levels n _

theorem exec_mute (p : Port) (n : Fin 8) {s : State} (hs : Running s) :
    exec (.mute p n.val) s
      = .next { setMute n true s with port := answeredPorts p (answer .ok []) s.port } :=
  exec_action (f := setMute n true) rfl hs (fun _ => rfl) (withScreen_inRange n _ _)

theorem exec_unmute (p : Port) (n : Fin 8) {s : State} (hs : Running s) :
    exec (.unmute p n.val) s
      = .next { setMute n false s with port := answeredPorts p (answer .ok []) s.port } :=
  exec_action (f := setMute n false) rfl hs (fun _ => rfl) (withScreen_inRange n _ _)

/-- Settles O40: each request is one update of its screen's master level record (`setFader`, `setMute`) with its
response placed. -/
theorem faderAndMuteRequests : Obligations.FaderAndMuteRequests := by
  refine ⟨fun p n level length s hs => ?_, fun p n s hs => ?_, fun p n s hs => ?_⟩
  · exact ⟨_, lawEntry s.gain (min level 100), exec_setLevel p n level length hs, rfl,
      othersKept_update n s.gain.levels _, lawEntry_min s.gain level, setFader_levels_atOnce level,
      setFader_levels_ramp level⟩
  · exact ⟨_, exec_mute p n hs, rfl, othersKept_update n s.gain.levels _, setMute_levels n true s⟩
  · exact ⟨_, exec_unmute p n hs, rfl, othersKept_update n s.gain.levels _, setMute_levels n false s⟩

/-! ### The fader law (R69) -/

/-- A table never falls exactly when no entry is less than the one before it. -/
theorem neverFalls_iff {entries : List Nat} :
    neverFalls entries = true ↔ ∀ k a b, entries[k]? = some a → entries[k + 1]? = some b → a ≤ b := by
  induction entries with
  | nil => simp [neverFalls]
  | cons x xs ih =>
    cases xs with
    | nil => simp [neverFalls]
    | cons y ys =>
      rw [neverFalls, Bool.and_eq_true, decide_eq_true_eq, ih]
      constructor
      · rintro ⟨hxy, hrest⟩ k a b ha hb
        cases k with
        | zero =>
          cases ha
          cases hb
          exact hxy
        | succ k => exact hrest k a b ha hb
      · exact fun h => ⟨h 0 x y rfl rfl, fun k a b ha hb => h (k + 1) a b ha hb⟩

/-- The law table a list of 101 entries gives. -/
def lawOf (entries : List Nat) : Vector Nat 101 := Vector.ofFn fun k => entries.getD k.val 0

/-- The fader law table replaced whole. -/
def replaceLaw (law : Vector Nat 101) (s : State) : State := { s with gain := { s.gain with law := law } }

/-- The table has 101 entries, each of 0..1,048,576. -/
def LawInRange (entries : List Nat) : Prop := entries.length = 101 ∧ ∀ e ∈ entries, e ≤ Config.maxGain

/-- The owner's test of the arguments fails exactly on a table that is not one of 101 entries in range. -/
theorem lawRefused_iff (entries : List Nat) :
    (entries.length ≠ 101 || entries.any (fun e => Config.maxGain < e)) = true ↔ ¬LawInRange entries := by
  simp only [LawInRange, Classical.not_and_iff_not_or_not, Classical.not_forall, Nat.not_le, exists_prop,
    Bool.or_eq_true, decide_eq_true_eq, List.any_eq_true, ne_eq]

theorem ownerSetFaderLaw_badArgument {entries : List Nat} (h : ¬LawInRange entries) :
    ownerSetFaderLaw entries = refuse .badArgument := by
  funext s
  exact if_pos ((lawRefused_iff entries).mpr h)

theorem ownerSetFaderLaw_inRange {entries : List Nat} (h : LawInRange entries) (s : State) :
    ownerSetFaderLaw entries s =
      if neverFalls entries = true then (replaceLaw (lawOf entries) s, answer .ok []) else refuse .badTable s := by
  have hrange : ¬(entries.length ≠ 101 || entries.any (fun e => Config.maxGain < e)) = true :=
    fun hcond => (lawRefused_iff entries).mp hcond h
  rw [ownerSetFaderLaw, if_neg hrange]
  cases neverFalls entries <;> rfl

theorem ownerSetFaderLaw_badTable {entries : List Nat} (h : LawInRange entries) (hfalls : ¬neverFalls entries = true) :
    ownerSetFaderLaw entries = refuse .badTable := by
  funext s
  rw [ownerSetFaderLaw_inRange h, if_neg hfalls]

/-- The replacement over any table, so that no proof compares two tables entry by entry. -/
theorem replaceLaw_withPort (law : Vector Nat 101) (s : State) (q : PortInterface) :
    { replaceLaw law s with port := q } = { s with gain := { s.gain with law := law }, port := q } := rfl

theorem lawOf_getElem {entries : List Nat} (h : entries.length = 101) (k : Fin 101) :
    entries[k.val]? = some (lawOf entries)[k] := by
  have hk : k.val < entries.length := by rw [h]; exact k.isLt
  simp [lawOf, hk]

/-- Settles O41: the owner tests the arguments, then the order of the entries (`neverFalls_iff`), and otherwise replaces
the whole table. -/
theorem faderLawIsReplacedWhole : Obligations.FaderLawIsReplacedWhole := by
  intro p entries s hs
  refine ⟨fun h => ?_, fun hlength hrange h => ?_, fun hlength hrange h => ?_⟩
  · refine exec_refused rfl (ownerSetFaderLaw_badArgument ?_) hs
    rintro ⟨hlength, hrange⟩
    obtain hne | ⟨e, he, habove⟩ := h
    · exact hne hlength
    · exact Nat.not_lt.mpr (hrange e he) habove
  · obtain ⟨k, a, b, ha, hb, hlt⟩ := h
    exact exec_refused rfl
      (ownerSetFaderLaw_badTable ⟨hlength, hrange⟩ fun hrises =>
        Nat.not_lt.mpr (neverFalls_iff.mp hrises k a b ha hb) hlt) hs
  · have htaken : ownerSetFaderLaw entries (takeHeld p s)
        = (replaceLaw (lawOf entries) (takeHeld p s), answer .ok []) := by
      rw [ownerSetFaderLaw_inRange ⟨hlength, hrange⟩, if_pos (neverFalls_iff.mpr h)]
    exact ⟨_, exec_action (f := replaceLaw (lawOf entries)) rfl hs (fun _ => rfl) htaken, replaceLaw_withPort _ s _,
      lawOf_getElem hlength⟩

end Sys2Proof.Machine
end

section
/-! PROOF. O24: a channel of the period in service through its section stage, its write and its read (R58, R61, R109 to
R113). -/

namespace Sys2Proof.Machine

open Sys2Proof

/-! ### The samples a read takes from the memory (R111) -/

theorem readsMemory_iff (r : RingRecord) (d i : Nat) : readsMemory r d i = true ↔ InMemory r d i := by
  rw [readsMemory, Bool.and_eq_true, decide_eq_true_eq, decide_eq_true_eq]
  rfl

/-- Of the first `n` numbers, those from `lo` on and below `hi` are a run. -/
theorem filter_range_eq_range' (n lo hi : Nat) :
    (List.range n).filter (fun i => decide (lo ≤ i) && decide (i < hi)) = List.range' lo (min n hi - lo) := by
  induction n with
  | zero => rw [Nat.zero_min, Nat.zero_sub]; rfl
  | succ n ih =>
    rw [List.range_succ, List.filter_append, ih]
    by_cases hn : lo ≤ n ∧ n < hi
    · have hlength : min (n + 1) hi - lo = (min n hi - lo) + 1 := by omega
      have hlast : lo + (min n hi - lo) = n := by omega
      have hin : (decide (lo ≤ n) && decide (n < hi)) = true := by rw [← Bool.decide_and, decide_eq_true hn]
      rw [hlength, List.range'_1_concat, hlast, List.filter_cons, if_pos hin, List.filter_nil]
    · have hlength : min (n + 1) hi - lo = min n hi - lo := by omega
      have hout : ¬(decide (lo ≤ n) && decide (n < hi)) = true := by rwa [← Bool.decide_and, decide_eq_true_eq]
      rw [hlength, List.filter_cons, if_neg hout, List.filter_nil, List.append_nil]

/-- The samples in the memory are a run: the distance falls by 1 from each sample to the next. -/
theorem memorySamples_eq_range' (r : RingRecord) (d : Nat) :
    memorySamples r d =
      List.range' (48 + d - 48 * r.history) (min 48 (48 + d - 48 * r.zeros) - (48 + d - 48 * r.history)) := by
  have hreads : readsMemory r d = fun i =>
      decide (48 + d - 48 * r.history ≤ i) && decide (i < 48 + d - 48 * r.zeros) := by
    funext i
    rw [Bool.eq_iff_iff, readsMemory_iff, InMemory, Bool.and_eq_true, decide_eq_true_eq, decide_eq_true_eq]
    omega
  rw [memorySamples, hreads, filter_range_eq_range']

theorem mem_memorySamples {r : RingRecord} {d i : Nat} : i ∈ memorySamples r d ↔ i < 48 ∧ InMemory r d i := by
  rw [memorySamples, List.mem_filter, List.mem_range, readsMemory_iff]

/-- A run that is `first` and `more` goes from `first` on, as many numbers as there are. -/
theorem range'_eq_of_cons {lo count first : Nat} {more : List Nat} (h : List.range' lo count = first :: more) :
    lo = first ∧ count = more.length + 1 := by
  have hcount : count = more.length + 1 := by
    have hlength := congrArg List.length h
    rwa [List.length_range', List.length_cons] at hlength
  rw [hcount, List.range'_succ] at h
  exact ⟨(List.cons.inj h).1, hcount⟩

/-- A read that takes samples from the memory takes a run of them, from its first on. -/
theorem inMemory_iff_of_cons {r : RingRecord} {d first : Nat} {more : List Nat}
    (h : memorySamples r d = first :: more) {i : Nat} (hi : i < 48) :
    InMemory r d i ↔ first ≤ i ∧ i < first + (more.length + 1) := by
  have hmem : i ∈ memorySamples r d ↔ InMemory r d i := mem_memorySamples.trans (and_iff_right hi)
  rw [memorySamples_eq_range'] at h
  obtain ⟨hfirst, hcount⟩ := range'_eq_of_cons h
  rw [← hmem, memorySamples_eq_range', hcount, hfirst, List.mem_range'_1]

/-- A read position lies in the ring, a period and the delay behind its sample's place after the write index. -/
theorem readPosition_spec (r : RingRecord) {d : Nat} (hd : d ≤ 12240) (i : Nat) :
    readPosition r d i < 12288 ∧ (readPosition r d i + 48 + d) % 12288 = (r.writeIndex + i) % 12288 := by
  simp only [readPosition, Config.ringLength]
  omega

/-! ### What moves of a channel -/

/-- The state with one channel's record and work moved, and with transfers that have joined the ring list. -/
def moveChannel (n : Fin 8) (c : Fin 16) (f : ChannelState → ChannelState) (g : ChannelWork → ChannelWork)
    (joined : List RingTransfer) (s : State) : State :=
  let t := onWork c g (onChannel n c f s)
  { t with memory := { t.memory with ringList := t.memory.ringList ++ joined } }

/-- A channel's record with its CLIP mark set if `b` (R77). -/
def clippedIf (b : Bool) (ch : ChannelState) : ChannelState := { ch with clip := ch.clip || b }

/-- Between `s` and `t` only channel `c` of the period `v` has moved, its record by `f` and its work by `g`, leaving the
period `v'` in service, and only the transfers `joined` have been asked for. -/
structure ChannelMoved (v : Service) (c : Fin 16) (f : ChannelState → ChannelState) (g : ChannelWork → ChannelWork)
    (joined : List RingTransfer) (s t : State) (v' : Service) : Prop where
  frame : t = { s with
    engine := { s.engine with channels := t.engine.channels, service := some v' }
    memory := { s.memory with ringList := s.memory.ringList ++ joined } }
  service : t.engine.service = some v'
  period : v' = { v with channels := v'.channels }
  work : v'.channels[c] = g v.channels[c]
  otherWorks : OthersKept c v.channels v'.channels
  record : t.engine.channels[v.screen][c] = f s.engine.channels[v.screen][c]
  otherScreens : OthersKept v.screen s.engine.channels t.engine.channels
  otherRecords : OthersKept c s.engine.channels[v.screen] t.engine.channels[v.screen]

theorem moveChannel_service {v : Service} {s : State} (hv : s.engine.service = some v) (n : Fin 8) (c : Fin 16)
    (f : ChannelState → ChannelState) (g : ChannelWork → ChannelWork) (joined : List RingTransfer) :
    (moveChannel n c f g joined s).engine.service = some { v with channels := update v.channels c g } := by
  rw [moveChannel, onWork, onService_engine_service, onChannel_engine_service, hv, Option.map_some]

theorem moveChannel_moved {v : Service} {s : State} (hv : s.engine.service = some v) (c : Fin 16)
    (f : ChannelState → ChannelState) (g : ChannelWork → ChannelWork) (joined : List RingTransfer) :
    ChannelMoved v c f g joined s (moveChannel v.screen c f g joined s)
      { v with channels := update v.channels c g } where
  frame := by
    rw [← moveChannel_service hv v.screen c f g joined]
    rfl
  service := moveChannel_service hv v.screen c f g joined
  period := rfl
  work := getElem_update_self v.channels c g
  otherWorks := othersKept_update c v.channels g
  record := by simp [moveChannel, onWork]
  otherScreens := othersKept_update v.screen s.engine.channels _
  otherRecords := by
    have hrow : (moveChannel v.screen c f g joined s).engine.channels[v.screen]
        = update s.engine.channels[v.screen] c f := getElem_update_self s.engine.channels v.screen _
    rw [hrow]
    exact othersKept_update c _ f

/-- Two moves of one channel, the second behind a change of a ring record, are one. -/
theorem moveChannel_onRing (n : Fin 8) (c : Fin 16) (f f' : ChannelState → ChannelState)
    (g g' : ChannelWork → ChannelWork) (joined : List RingTransfer) (k : Fin 128) (h : RingRecord → RingRecord)
    (s : State) :
    moveChannel n c f' g' joined (onRing k h (onWork c g (onChannel n c f s)))
      = moveChannel n c (fun x => f' (f x)) (fun x => g' (g x)) joined (onRing k h s) := by
  simp [moveChannel, onWork, onService, onChannel, onRing, Function.comp_def]

/-! ### The read of a channel is settled (R109, R111) -/

/-- Read values through the stages after the ring, by the work and record of channel `c` (R65, R67, R75, R76). -/
def channelOutput (v : Service) (c : Fin 16) (r : ChannelRecord) (reads : Samples) : Samples × Bool :=
  outputStage v.channels[c].fade r.invert (combinedGain r.trim v.gain v.factor) reads

/-- A channel's work done with the output given. -/
def doneWith (out : Samples) (w : ChannelWork) : ChannelWork := { w with stage := .done, output := out }

/-- A channel's work waiting for a read that supplies its samples from `first` on. -/
def waitingFor (first : Nat) (w : ChannelWork) : ChannelWork := { w with stage := .read first }

theorem moveChannel_nothing_joined (n : Fin 8) (c : Fin 16) (f : ChannelState → ChannelState)
    (g : ChannelWork → ChannelWork) (s : State) : moveChannel n c f g [] s = onWork c g (onChannel n c f s) := by
  simp only [moveChannel, List.append_nil]

/-- No clip to add, no change. -/
theorem onChannel_clippedIf_false (n : Fin 8) (c : Fin 16) (s : State) : onChannel n c (clippedIf false) s = s := by
  have hrow (cs : Vector ChannelState 16) : update cs c (clippedIf false) = cs :=
    update_same cs c _ (by simp [clippedIf])
  simp only [onChannel, hrow]
  rw [update_same _ n _ rfl]

theorem finishChannel_eq (v : Service) (c : Fin 16) (reads : Samples) (s : State) :
    finishChannel v c reads s =
      moveChannel v.screen c (clippedIf (channelOutput v c (periodRecord v c s) reads).2)
        (doneWith (channelOutput v c (periodRecord v c s) reads).1) [] s := by
  rw [moveChannel_nothing_joined]
  rfl

theorem joinRing_onWork (n : Fin 8) (x : RingTransfer) (c : Fin 16) (g : ChannelWork → ChannelWork) (s : State) :
    joinRing x (onWork c g s) = moveChannel n c (clippedIf false) g [x] s := by
  rw [moveChannel, onChannel_clippedIf_false]
  rfl

theorem settleRead_bypassed {v : Service} {c : Fin 16} (hd : v.channels[c].readDelay = 0) (post : Samples) (s : State) :
    settleRead v c post s = finishChannel v c post s :=
  if_pos hd

theorem settleRead_silent {v : Service} {c : Fin 16} {s : State} (hd : v.channels[c].readDelay ≠ 0)
    (hnone : memorySamples s.memory.rings[ringOf v.screen c] v.channels[c].readDelay = []) (post : Samples) :
    settleRead v c post s = finishChannel v c silence s := by
  rw [settleRead, if_neg hd, hnone]

theorem settleRead_reads {v : Service} {c : Fin 16} {s : State} {first : Nat} {more : List Nat}
    (hd : v.channels[c].readDelay ≠ 0)
    (hsome : memorySamples s.memory.rings[ringOf v.screen c] v.channels[c].readDelay = first :: more)
    (post : Samples) :
    settleRead v c post s =
      joinRing (.read (ringOf v.screen c)
          (readPosition s.memory.rings[ringOf v.screen c] v.channels[c].readDelay first) (more.length + 1))
        (onWork c (waitingFor first) s) := by
  rw [settleRead, if_neg hd, hsome]
  rfl

/-- A settled read moves its channel as R109 and R111 say: done with its post-equaliser values at read delay 0, done
with zeros when no sample lies in the memory, and otherwise waiting for one read transfer. -/
theorem settleRead_settles (v : Service) (c : Fin 16) (post : Samples) (s : State) :
    ∃ g joined clips, settleRead v c post s = moveChannel v.screen c (clippedIf clips) g joined s
      ∧ ReadSettled v c (periodRecord v c s) s.memory.rings[ringOf v.screen c] post
          (g { v.channels[c] with post := post }) joined clips := by
  by_cases hd : v.channels[c].readDelay = 0
  · exact ⟨_, _, _, (settleRead_bypassed hd post s).trans (finishChannel_eq v c post s), fun _ => ⟨rfl, rfl, rfl⟩,
      fun hpos => absurd hd (Nat.ne_of_gt hpos), fun _ hpos => absurd hd (Nat.ne_of_gt hpos)⟩
  · cases hsamples : memorySamples s.memory.rings[ringOf v.screen c] v.channels[c].readDelay with
    | nil =>
      refine ⟨_, _, _, (settleRead_silent hd hsamples post).trans (finishChannel_eq v c silence s),
        fun hzero => absurd hzero hd, fun _ _ => ⟨rfl, rfl, rfl⟩, fun first _ _ hfirst hin _ => ?_⟩
      have hmem := mem_memorySamples.mpr ⟨hfirst, hin⟩
      rw [hsamples] at hmem
      cases hmem
    | cons first more =>
      have hrun := fun i (hi : i < 48) => inMemory_iff_of_cons hsamples hi
      obtain ⟨hfirst, hin⟩ := mem_memorySamples.mp (hsamples.symm ▸ List.mem_cons_self)
      refine ⟨_, _, _, (settleRead_reads hd hsamples post).trans (joinRing_onWork v.screen _ c _ s),
        fun hzero => absurd hzero hd, fun _ hnone => absurd hin (hnone first hfirst),
        fun first' _ hlimit hfirst' hin' hbefore => ?_⟩
      have hle : first ≤ first' := ((hrun first' hfirst').mp hin').1
      obtain rfl : first = first' := Nat.le_antisymm hle (Nat.le_of_not_lt fun hlt => hbefore first hlt hin)
      obtain ⟨hposition, hplace⟩ := readPosition_spec s.memory.rings[ringOf v.screen c] hlimit first
      exact ⟨rfl, rfl, _, _, rfl, hposition, hplace, hrun⟩

/-! ### The section stage (R58, R61) -/

theorem applySection_length (r : ChannelRecord) (k : Fin 12) (acc : StageResult) :
    (applySection r k acc).values.length = acc.values.length := by
  cases h : r.sections[k].inUse with
  | false => rw [applySection_unused h]
  | true => rw [applySection_used h, runSection_length]

/-- The section stage gives a value for each source value. -/
theorem sectionStage_length (r : ChannelRecord) (hs : Vector History 12) (xs : Samples) :
    (sectionStage r hs xs).values.length = xs.length := by
  have hfold (ks : List (Fin 12)) (acc : StageResult) :
      (ks.foldl (fun acc k => applySection r k acc) acc).values.length = acc.values.length := by
    induction ks generalizing acc with
    | nil => rfl
    | cons k ks ih => rw [List.foldl_cons, ih, applySection_length]
  exact hfold _ _

/-- What the section stage of channel `c` of the period leaves. -/
def stageOf (v : Service) (c : Fin 16) (s : State) : StageResult :=
  sectionStage (periodRecord v c s) s.engine.channels[v.screen][c].histories v.sources[c]

/-- A channel's record after its section stage (R61, R77). -/
def afterSections (res : StageResult) (ch : ChannelState) : ChannelState :=
  { ch with histories := res.histories, clip := ch.clip || res.clip }

/-- A channel with a delay in the active bank joins its write (R109). -/
theorem finishSections_delayed {v : Service} {c : Fin 16} {s : State} (h : 0 < (periodRecord v c s).delay) :
    finishSections v c s =
      moveChannel v.screen c (afterSections (stageOf v c s))
        (fun w => { w with post := (stageOf v c s).values, stage := .write })
        [.write (ringOf v.screen c) s.memory.rings[ringOf v.screen c].writeIndex (stageOf v c s).values] s :=
  if_pos h

/-- A channel without one makes a zero write, and its read is settled at once (R109, R110). -/
theorem finishSections_undelayed {v : Service} {c : Fin 16} {s : State} (h : (periodRecord v c s).delay = 0) :
    finishSections v c s =
      settleRead v c (stageOf v c s).values
        (onRing (ringOf v.screen c) ringAfterZeros
          (onWork c (fun w => { w with post := (stageOf v c s).values })
            (onChannel v.screen c (afterSections (stageOf v c s)) s))) :=
  if_neg (Nat.not_lt.mpr (Nat.le_of_eq h))

theorem exec_sectionStageComplete {v : Service} {c : Fin 16} {s : State} (hs : Running s)
    (hv : s.engine.service = some v) (hstage : v.channels[c].stage = .sections) :
    exec (.sectionStageComplete c) s = .next (finishSections v c s) := by
  rw [exec, execSectionStageComplete, whenRunning_running hs, hv]
  exact congrArg _ (if_pos hstage)

theorem sectionStageSettlesTheWrite : SectionStageSettlesTheWrite := by
  intro c v s hs hv hstage r k ch res
  have hexec := exec_sectionStageComplete hs hv hstage
  have hlength : v.sources[c].length = 48 → res.values.length = 48 := (sectionStage_length r ch.histories _).trans
  by_cases hr : r.delay = 0
  · obtain ⟨g, joined, clips, hsettle, hread⟩ := settleRead_settles v c res.values
      (onRing k ringAfterZeros (onWork c (fun w => { w with post := res.values })
        (onChannel v.screen c (afterSections res) s)))
    have hfinish := (finishSections_undelayed hr).trans hsettle
    rw [moveChannel_onRing] at hfinish
    rw [hfinish] at hexec
    obtain ⟨hframe, hservice, hperiod, hwork, hworks, hrecord, hscreens, hrecords⟩ :=
      moveChannel_moved (s := onRing k ringAfterZeros s) hv c (fun x => clippedIf clips (afterSections res x))
        (fun w => g { w with post := res.values }) joined
    refine ⟨_, _, joined, clips, hexec, hservice, hframe, hperiod, hworks, hlength, hscreens, hrecords, hrecord,
      othersKept_update k s.memory.rings ringAfterZeros, fun hpos => absurd hr (Nat.ne_of_gt hpos), fun _ => ⟨?_, ?_⟩⟩
    · exact getElem_update_self s.memory.rings k ringAfterZeros
    · rw [hwork]
      exact hread
  · have hpos : 0 < r.delay := Nat.pos_of_ne_zero hr
    rw [finishSections_delayed hpos] at hexec
    obtain ⟨hframe, hservice, hperiod, hwork, hworks, hrecord, hscreens, hrecords⟩ :=
      moveChannel_moved hv c (afterSections res) (fun w => { w with post := res.values, stage := .write })
        [.write k s.memory.rings[k].writeIndex res.values]
    refine ⟨_, _, [.write k s.memory.rings[k].writeIndex res.values], false, hexec, hservice, hframe, hperiod, hworks,
      hlength, hscreens, hrecords, ?_, fun _ _ => rfl, fun _ => ⟨hwork, rfl, rfl, rfl⟩, fun hzero => absurd hzero hr⟩
    · rw [Bool.or_false]
      exact hrecord

/-! ### The completion of a ring transfer (R98, R110, R111, R113) -/

theorem exec_ringTransferComplete {x : RingTransfer} {live : Bool} {s : State} (hs : Running s)
    (hbus : s.memory.bus = .ring x live) :
    exec .ringTransferComplete s = .next (completeTransfer x live s) := by
  rw [exec, execRingTransferComplete, whenRunning_running hs, hbus]

theorem ringChannel_ringOf (n : Fin 8) (c : Fin 16) : ringChannel (ringOf n c) = c :=
  Fin.ext (by simp only [ringChannel, ringOf]; omega)

/-- The bus freed, with the values of a write transfer in the SDRAM (R98). -/
def ringWritten (k : Fin 128) (start : Nat) (values : Samples) (s : State) : State :=
  { s with memory := { s.memory with bus := .none, sdram := writeRing s.memory.sdram k start values } }

theorem completeTransfer_write {v : Service} {c : Fin 16} {s : State} (hv : s.engine.service = some v)
    (start : Nat) (values : Samples) :
    completeTransfer (.write (ringOf v.screen c) start values) true s =
      settleRead v c values (onRing (ringOf v.screen c) ringAfterProgram
        (ringWritten (ringOf v.screen c) start values s)) := by
  simp only [completeTransfer, if_true, hv, ringChannel_ringOf]
  rfl

theorem writeSettlesTheRead : WriteSettlesTheRead := by
  intro c start v s hs hv hbus r k
  obtain ⟨g, joined, clips, hsettle, hread⟩ := settleRead_settles v c v.channels[c].post
    (onRing k ringAfterProgram (ringWritten k start v.channels[c].post s))
  have hexec := exec_ringTransferComplete hs hbus
  rw [completeTransfer_write hv, hsettle] at hexec
  obtain ⟨hframe, hservice, hperiod, hwork, hworks, hrecord, hscreens, hrecords⟩ :=
    moveChannel_moved (s := onRing k ringAfterProgram (ringWritten k start v.channels[c].post s)) hv c
      (clippedIf clips) g joined
  have hring : (onRing k ringAfterProgram (ringWritten k start v.channels[c].post s)).memory.rings[k]
      = ringAfterProgram s.memory.rings[k] := getElem_update_self s.memory.rings k ringAfterProgram
  refine ⟨_, _, joined, clips, hexec, hservice, hframe, hperiod, hworks, hscreens, hrecords, hrecord,
    othersKept_update k s.memory.rings ringAfterProgram, hring, ?_⟩
  · rw [hwork]
    exact hread

/-! ### The values read (R98, R111) -/

theorem placeRead_length (first : Nat) (vs : Samples) : (placeRead first vs).length = 48 := by
  simp [placeRead]

/-- The words read stand from sample `first` on, and every other sample is 0. -/
theorem placeRead_readRing (s : State) (k : Fin 128) (start count first : Nat) {i : Nat} (hi : i < 48) :
    (placeRead first (readRing s k start count))[i]? = some (if first ≤ i ∧ i < first + count
      then wordToSample (sdramWord s (ringWord k (start + (i - first)))) else 0) := by
  by_cases hfirst : first ≤ i
  · by_cases hcount : i - first < count
    · have hin : i < first + count := by omega
      simp [placeRead, readRing, hi, hfirst, hcount, hin]
    · have hout : ¬i < first + count := by omega
      simp [placeRead, readRing, hi, hfirst, hcount, hout]
  · simp [placeRead, hi, hfirst]

/-- A read whose period is no longer served, or that its channel does not wait for, frees the bus alone (R113). -/
theorem completeTransfer_read_discarded {k : Fin 128} {live : Bool} {s : State} (start count : Nat)
    (h : ∀ v first, live = true → s.engine.service = some v → v.channels[ringChannel k].stage ≠ .read first) :
    completeTransfer (.read k start count) live s = setBus .none s := by
  cases live with
  | false => rfl
  | true =>
    cases hv : s.engine.service with
    | none => simp [completeTransfer, hv]
    | some v =>
      simp only [completeTransfer, setBus_engine, hv, if_true]
      split
      · next first hstage => exact absurd hstage (h v first rfl hv)
      · rfl

theorem completeTransfer_read_awaited {k : Fin 128} {v : Service} {first : Nat} {s : State} (start count : Nat)
    (hv : s.engine.service = some v) (hstage : v.channels[ringChannel k].stage = .read first) :
    completeTransfer (.read k start count) true s =
      finishChannel v (ringChannel k) (placeRead first (readRing s k start count)) (setBus .none s) := by
  simp only [completeTransfer, setBus_engine, hv, hstage, if_true]

theorem ringReadSettlesItsChannel : RingReadSettlesItsChannel := by
  intro k start count live s hs hbus
  have hexec := exec_ringTransferComplete hs hbus
  by_cases hawaited : ∃ v first, live = true ∧ s.engine.service = some v
      ∧ v.channels[ringChannel k].stage = .read first
  · obtain ⟨v, first, rfl, hv, hstage⟩ := hawaited
    rw [completeTransfer_read_awaited start count hv hstage, finishChannel_eq] at hexec
    obtain ⟨hframe, hservice, hperiod, hwork, hworks, hrecord, hscreens, hrecords⟩ :=
      moveChannel_moved (s := setBus .none s) hv (ringChannel k) _ _ []
    refine ⟨_, hexec, ?_, nofun, fun u hu hother => ?_, fun u first' _ hu hstage' => ?_⟩
    · rw [moveChannel_nothing_joined]
      rfl
    · obtain rfl : v = u := Option.some.inj (hv.symm.trans hu)
      exact absurd hstage (hother first)
    · obtain rfl : v = u := Option.some.inj (hv.symm.trans hu)
      obtain rfl : first = first' := ChannelStage.read.inj (hstage.symm.trans hstage')
      exact ⟨_, _, hservice, hperiod, hworks, placeRead_length _ _,
        fun i hi => placeRead_readRing s k start count first hi, hwork,
        by rw [hwork]; exact outputStage_outputSamples _ _ _ _, hscreens, hrecords, hrecord⟩
  · have hdiscarded := completeTransfer_read_discarded (k := k) (live := live) (s := s) start count
      fun v first hlive hv hstage => hawaited ⟨v, first, hlive, hv, hstage⟩
    rw [hdiscarded] at hexec
    exact ⟨_, hexec, rfl, fun _ => rfl, fun _ _ _ => rfl,
      fun v first hlive hv hstage => absurd ⟨v, first, hlive, hv, hstage⟩ hawaited⟩

/-- Settles O24: each event moves one channel of the period in service (`moveChannel_moved`), and the read is settled by
the run of samples that lie in the memory (`settleRead_settles`). -/
theorem channelsPassThroughTheirRings : Obligations.ChannelsPassThroughTheirRings :=
  ⟨sectionStageSettlesTheWrite, writeSettlesTheRead, ringReadSettlesItsChannel⟩

end Sys2Proof.Machine
end

section
/-! PROOF. O46: the requests that configure watches, meters and the Alarm Handler, and the attention lines. -/

namespace Sys2Proof.Machine

open Sys2Proof

/-! ### Codes (R190, R191)

Each code reads as the one value it stands for, so a code out of range reads as none. -/

theorem watchKindOf_eq_some_iff {code : Nat} {k : WatchKind} : watchKindOf code = some k ↔ code = watchKindCode k := by
  constructor
  · intro h
    match code, h with
    | 0, h | 1, h | 2, h => cases h; rfl
  · rintro rfl
    cases k <;> rfl

theorem actionOf_eq_some_iff {code : Nat} {a : AlarmAction} : actionOf code = some a ↔ code = actionCode a := by
  constructor
  · intro h
    match code, h with
    | 0, h | 1, h | 2, h => cases h; rfl
  · rintro rfl
    cases a <;> rfl

theorem severityOf_eq_some_iff {code : Nat} {v : Severity} : severityOf code = some v ↔ code = severityCode v := by
  constructor
  · intro h
    match code, h with
    | 1, h | 2, h | 3, h => cases h; rfl
  · rintro rfl
    cases v <;> rfl

theorem lineModeOf_eq_some_iff {code : Nat} {m : LineMode} : lineModeOf code = some m ↔ code = lineModeCode m := by
  constructor
  · intro h
    match code, h with
    | 0, h | 1, h | 2, h => cases h; rfl
  · rintro rfl
    cases m <;> rfl

theorem kindOf_eq_some_iff {code : Nat} {k : AlarmKind} : kindOf code = some k ↔ code = alarmKindCode k := by
  constructor
  · intro h
    have hread : ∀ c : Fin 15, ∀ x ∈ kindOf c.val, c.val = alarmKindCode x := by decide
    by_cases hcode : code < 15
    · exact hread ⟨code, hcode⟩ k h
    · have hnone : kindTable[code - 1]? = none := List.getElem?_eq_none (by simp only [kindTable, List.length]; omega)
      rw [kindOf, hnone, ite_self] at h
      cases h
  · rintro rfl
    cases k <;> rfl

@[simp] theorem watchKindOf_watchKindCode (k : WatchKind) : watchKindOf (watchKindCode k) = some k :=
  watchKindOf_eq_some_iff.mpr rfl
@[simp] theorem actionOf_actionCode (a : AlarmAction) : actionOf (actionCode a) = some a := actionOf_eq_some_iff.mpr rfl
@[simp] theorem severityOf_severityCode (v : Severity) : severityOf (severityCode v) = some v :=
  severityOf_eq_some_iff.mpr rfl
@[simp] theorem lineModeOf_lineModeCode (m : LineMode) : lineModeOf (lineModeCode m) = some m :=
  lineModeOf_eq_some_iff.mpr rfl
@[simp] theorem kindOf_alarmKindCode (k : AlarmKind) : kindOf (alarmKindCode k) = some k := kindOf_eq_some_iff.mpr rfl

theorem watchKindOf_some_le {code : Nat} {k : WatchKind} (h : watchKindOf code = some k) : code ≤ 2 := by
  rw [watchKindOf_eq_some_iff.mp h]
  cases k <;> decide

theorem actionOf_some_le {code : Nat} {a : AlarmAction} (h : actionOf code = some a) : code ≤ 2 := by
  rw [actionOf_eq_some_iff.mp h]
  cases a <;> decide

theorem lineModeOf_some_le {code : Nat} {m : LineMode} (h : lineModeOf code = some m) : code ≤ 2 := by
  rw [lineModeOf_eq_some_iff.mp h]
  cases m <;> decide

/-- The row of a kind is its code less 1, so a kind's code is one of 1..14. -/
theorem alarmKindCode_eq (k : AlarmKind) : alarmKindCode k = (kindRow k).val + 1 := by cases k <;> rfl

/-- The row of a severity is its code less 1, so a severity's code is one of 1..3. -/
theorem severityCode_eq (v : Severity) : severityCode v = (severityRow v).val + 1 := by cases v <;> rfl

theorem kindRow_eq_of_code {row : Fin 14} {k : AlarmKind} (h : row.val + 1 = alarmKindCode k) : kindRow k = row :=
  Fin.ext (Nat.succ_inj.mp ((alarmKindCode_eq k).symm.trans h.symm))

theorem severityRow_surjective (row : Fin 3) : ∃ v, severityRow v = row := by
  match row with
  | 0 => exact ⟨.notice, rfl⟩
  | 1 => exact ⟨.warning, rfl⟩
  | 2 => exact ⟨.critical, rfl⟩

theorem severityOf_eq_none {code : Nat} (h : code = 0 ∨ 3 < code) : severityOf code = none := by
  cases hv : severityOf code with
  | none => rfl
  | some v =>
    have hcode := (severityOf_eq_some_iff.mp hv).trans (severityCode_eq v)
    omega

theorem atOrAbove_iff (a b : Severity) : atOrAbove a b = true ↔ severityCode b ≤ severityCode a := by
  have hrank : ∀ v, severityCode v = severityRank v + 1 := fun v => by cases v <;> rfl
  rw [atOrAbove, decide_eq_true_eq, hrank, hrank, Nat.add_le_add_iff_right]

/-- The scope mask names the scope: screen n at weight 2^n and DEVICE at 2^8. -/
theorem scopeMask_getLsbD_iff (mask : Nat) (sc : Scope) :
    (BitVec.ofNat 9 mask).getLsbD (scopeBit sc) = true ↔
      (∃ n : Fin 8, sc = .screen n ∧ mask.testBit n.val = true) ∨ sc = .device ∧ mask.testBit 8 = true := by
  cases sc with
  | screen n =>
    have hn : n.val < 9 := by omega
    rw [scopeBit, BitVec.getLsbD_ofNat]
    simp only [hn, decide_true, Bool.true_and, Scope.screen.injEq, exists_eq_left', reduceCtorEq, false_and, or_false]
  | device =>
    rw [scopeBit, BitVec.getLsbD_ofNat]
    simp only [Nat.lt_add_one, decide_true, Bool.true_and, reduceCtorEq, false_and, exists_const, true_and, false_or]

theorem actionAllowed_iff (k : AlarmKind) (a : AlarmAction) : actionAllowed k a = true ↔ MapActionAllowed k a := by
  cases a with
  | none => simp [actionAllowed, MapActionAllowed]
  | fallback => simp [actionAllowed, MapActionAllowed]
  | holdCues => cases k <;> simp [actionAllowed, MapActionAllowed, isWatchKind, isDeviceKind]

/-! ### Alarm lines (R147, R148) -/

/-- A line's level does not depend on its latch, nor on anything else but the active set. -/
theorem lineLevel_congr {a b : AlarmHandler} {i : Fin 4} (hactive : b.active = a.active)
    (hline : { b.lines[i] with latch := a.lines[i].latch } = a.lines[i]) : lineLevel b i = lineLevel a i := by
  rw [lineLevel, lineLevel, hactive, ← hline]

theorem lineLevel_off {a : AlarmHandler} {i : Fin 4} (h : a.lines[i].mode = .off) : lineLevel a i = false := by
  rw [lineLevel, h]

theorem lineLevel_follow {a : AlarmHandler} {i : Fin 4} (h : a.lines[i].mode = .follow) :
    lineLevel a i = a.lines[i].follow := by
  rw [lineLevel, h]

theorem lineLevel_severity_iff {a : AlarmHandler} {i : Fin 4} (h : a.lines[i].mode = .severity) :
    lineLevel a i = true ↔ ∃ e ∈ a.active, e.acknowledged = false
      ∧ severityCode a.lines[i].threshold ≤ severityCode e.severity
      ∧ a.lines[i].scopes.getLsbD (scopeBit e.id.scope) = true := by
  simp only [lineLevel, h, List.any_eq_true, Bool.and_eq_true, Bool.not_eq_true', atOrAbove_iff, and_assoc]

theorem settleLatches_line (before after : AlarmHandler) (i : Fin 4) :
    (settleLatches before after).lines[i] =
      { after.lines[i] with latch := after.lines[i].latch || (!lineLevel before i && lineLevel after i) } :=
  getElem_mapWith after.lines _ i

/-- Setting the latches moves no line. -/
theorem lineLevel_settleLatches (before after : AlarmHandler) (i : Fin 4) :
    lineLevel (settleLatches before after) i = lineLevel after i :=
  lineLevel_congr rfl (by rw [settleLatches_line])

/-- A line whose level is as before keeps its record as it is. -/
theorem settleLatches_line_of_level {before after : AlarmHandler} {i : Fin 4}
    (h : lineLevel after i = lineLevel before i) : (settleLatches before after).lines[i] = after.lines[i] := by
  rw [settleLatches_line, h, Bool.not_and_self, Bool.or_false]

/-- A change that leaves the active set and the lines sets no latch. -/
theorem settleLatches_of_lines {before after : AlarmHandler} (hactive : after.active = before.active)
    (hlines : after.lines = before.lines) : settleLatches before after = after := by
  have hkept : (settleLatches before after).lines = after.lines :=
    Vector.ext fun i hi =>
      settleLatches_line_of_level (i := ⟨i, hi⟩) (lineLevel_congr hactive (by rw [hlines]))
  exact congrArg (fun ls => { after with lines := ls }) hkept

/-- The Alarm Handler with its line `i` changed by `f`. -/
def onLine (i : Fin 4) (f : AlarmLine → AlarmLine) (a : AlarmHandler) : AlarmHandler :=
  { a with lines := update a.lines i f }

theorem onLine_line (i : Fin 4) (f : AlarmLine → AlarmLine) (a : AlarmHandler) :
    (onLine i f a).lines[i] = f a.lines[i] :=
  getElem_update_self a.lines i f

/-- A change of one line sets no latch of another. -/
theorem othersKept_settleLatches_onLine (i : Fin 4) (f : AlarmLine → AlarmLine) (a : AlarmHandler) :
    OthersKept i a.lines (settleLatches a (onLine i f a)).lines := by
  intro j hj
  have hkept : (onLine i f a).lines[j] = a.lines[j] := othersKept_update i a.lines f j hj
  have hlevel : lineLevel (onLine i f a) j = lineLevel a j := lineLevel_congr rfl (by rw [hkept])
  exact (settleLatches_line_of_level hlevel).trans hkept

/-- The record SET_LINE leaves in place of a line's, the latch apart. -/
def newLine (mode : LineMode) (threshold : Severity) (mask : Nat) (follow : Bool) (l : AlarmLine) : AlarmLine :=
  { mode := mode, threshold := threshold, scopes := BitVec.ofNat 9 mask, follow := follow, latch := l.latch }

/-! ### The attention lines (R146) -/

/-- An entry's severity is routed to a port by the one row of the table that its code names. -/
theorem attention_iff (a : AlarmHandler) (p : Port) :
    attention a p = true ↔ ∃ e ∈ a.active, e.acknowledged = false ∧ ∃ row : Fin 3,
      severityCode e.severity = row.val + 1 ∧ a.routes[row].getLsbD (portIndex p).val = true := by
  have hrow : ∀ (v : Severity) (row : Fin 3), severityCode v = row.val + 1 ↔ severityRow v = row := fun v row => by
    rw [severityCode_eq, Nat.succ_inj, Fin.ext_iff]
  simp only [attention, List.any_eq_true, Bool.and_eq_true, Bool.not_eq_true', hrow, exists_eq_left']

/-! ### Requests that change the Alarm Handler -/

/-- A taken request on the Alarm Handler changes it alone, with the latches following. -/
theorem exec_changeAlarm {r : Instr} {p : Port} {owner : Owner} {f : AlarmHandler → AlarmHandler} {rep : Reply}
    {s : State} (hr : requestOwner r = some (p, owner)) (hs : Running s)
    (h : owner (takeHeld p s) = (changeAlarm f (takeHeld p s), rep)) :
    exec r s = .next { s with
      alarm := settleLatches s.alarm (f s.alarm), port := answeredPorts p rep s.port } :=
  exec_action (f := changeAlarm f) hr hs (fun _ => rfl) h

/-- A taken request that leaves the active set and the lines changes its own records of the Alarm Handler alone. -/
theorem exec_changeAlarm_record {r : Instr} {p : Port} {owner : Owner} {f : AlarmHandler → AlarmHandler} {rep : Reply}
    {s : State} (hr : requestOwner r = some (p, owner)) (hs : Running s)
    (h : owner (takeHeld p s) = (changeAlarm f (takeHeld p s), rep))
    (hactive : (f s.alarm).active = s.alarm.active) (hlines : (f s.alarm).lines = s.alarm.lines) :
    exec r s = .next { s with alarm := f s.alarm, port := answeredPorts p rep s.port } := by
  rw [exec_changeAlarm hr hs h, settleLatches_of_lines hactive hlines]

/-! ### The owners of SET_SEVERITY, SET_ROUTE and SET_SNAPSHOT_LEVEL (R136, R145, R146) -/

theorem ownerSetSeverity_coded (k : AlarmKind) (v : Severity) (a : AlarmAction) (s : State) :
    ownerSetSeverity (alarmKindCode k) (severityCode v) (actionCode a) s =
      if actionAllowed k a = true then
        (changeAlarm (fun x => { x with kindMap := update x.kindMap (kindRow k) fun _ => ⟨v, a⟩ }) s, answer .ok [])
      else refuse .badArgument s := by
  rw [ownerSetSeverity, kindOf_alarmKindCode, severityOf_severityCode, actionOf_actionCode]

theorem ownerSetSeverity_taken {k : AlarmKind} {a : AlarmAction} (v : Severity) (h : MapActionAllowed k a) (s : State) :
    ownerSetSeverity (alarmKindCode k) (severityCode v) (actionCode a) s =
      (changeAlarm (fun x => { x with kindMap := update x.kindMap (kindRow k) fun _ => ⟨v, a⟩ }) s, answer .ok []) := by
  rw [ownerSetSeverity_coded, if_pos ((actionAllowed_iff k a).mpr h)]

theorem ownerSetSeverity_notAllowed {k : AlarmKind} {a : AlarmAction} (v : Severity) (h : ¬MapActionAllowed k a) :
    ownerSetSeverity (alarmKindCode k) (severityCode v) (actionCode a) = refuse .badArgument := by
  funext s
  rw [ownerSetSeverity_coded, if_neg fun hallowed => h ((actionAllowed_iff k a).mp hallowed)]

theorem ownerSetSeverity_refused {kind severity action : Nat}
    (h : kind = 0 ∨ 14 < kind ∨ severity = 0 ∨ 3 < severity ∨ 2 < action) :
    ownerSetSeverity kind severity action = refuse .badArgument := by
  funext s
  unfold ownerSetSeverity
  split
  next k v a hk hv ha =>
    have hkind := (kindOf_eq_some_iff.mp hk).trans (alarmKindCode_eq k)
    have hseverity := (severityOf_eq_some_iff.mp hv).trans (severityCode_eq v)
    have haction := actionOf_some_le ha
    omega
  next => rfl

theorem ownerSetRoute_taken (v : Severity) (mask : Fin 8) (s : State) :
    ownerSetRoute (severityCode v) mask.val s =
      (changeAlarm (fun x => { x with routes := update x.routes (severityRow v) fun _ => BitVec.ofNat 3 mask.val }) s,
        answer .ok []) := by
  rw [ownerSetRoute, severityOf_severityCode]
  exact if_pos mask.isLt

theorem ownerSetRoute_refused {severity mask : Nat} (h : severity = 0 ∨ 3 < severity ∨ 7 < mask) :
    ownerSetRoute severity mask = refuse .badArgument := by
  funext s
  unfold ownerSetRoute
  split
  next v hv =>
    have hseverity := (severityOf_eq_some_iff.mp hv).trans (severityCode_eq v)
    exact if_neg (by omega)
  next => rfl

theorem ownerSetSnapshotLevel_taken (v : Severity) (s : State) :
    ownerSetSnapshotLevel (severityCode v) s =
      (changeAlarm (fun x => { x with snapshotLevel := v }) s, answer .ok []) := by
  rw [ownerSetSnapshotLevel, severityOf_severityCode]

theorem ownerSetSnapshotLevel_refused {severity : Nat} (h : severity = 0 ∨ 3 < severity) :
    ownerSetSnapshotLevel severity = refuse .badArgument := by
  funext s
  rw [ownerSetSnapshotLevel, severityOf_eq_none h]

/-! ### The owners of SET_LINE and CLEAR_LINE_LATCH (R147, R148) -/

theorem withLine_inRange (i : Fin 4) (s : State) (f : Fin 4 → State × Reply) : withLine i.val s f = f i :=
  dif_pos i.isLt

theorem withLine_outside {line : Nat} (h : 3 < line) (s : State) (f : Fin 4 → State × Reply) :
    withLine line s f = refuse .badArgument s :=
  dif_neg (by omega)

theorem ownerSetLine_taken (i : Fin 4) (mode : LineMode) (threshold : Severity) (mask : Fin 512) (follow : Fin 2)
    (s : State) :
    ownerSetLine i.val (lineModeCode mode) (severityCode threshold) mask.val follow.val s =
      (changeAlarm (onLine i (newLine mode threshold mask.val (decide (follow.val = 1)))) s, answer .ok []) := by
  have hargs : (decide (mask.val < 512) && isFlag follow.val) = true := by
    simp only [isFlag, Bool.and_eq_true, decide_eq_true_eq]
    omega
  rw [ownerSetLine, withLine_inRange, lineModeOf_lineModeCode, severityOf_severityCode]
  exact if_pos hargs

theorem ownerSetLine_refused {line mode threshold mask follow : Nat}
    (h : 3 < line ∨ 2 < mode ∨ threshold = 0 ∨ 3 < threshold ∨ 511 < mask ∨ 1 < follow) :
    ownerSetLine line mode threshold mask follow = refuse .badArgument := by
  funext s
  by_cases hline : 3 < line
  · exact withLine_outside hline s _
  · rw [ownerSetLine, withLine, dif_pos (by omega)]
    split
    next m v hm hv =>
      have hmode := lineModeOf_some_le hm
      have hthreshold := (severityOf_eq_some_iff.mp hv).trans (severityCode_eq v)
      refine if_neg ?_
      simp only [isFlag, Bool.and_eq_true, decide_eq_true_eq]
      omega
    next => rfl

theorem ownerClearLineLatch_taken (i : Fin 4) (s : State) :
    ownerClearLineLatch i.val s =
      (changeAlarm (onLine i fun l => { l with latch := false }) s,
        answer .ok [if s.alarm.lines[i].latch = true then 1 else 0, if lineLevel s.alarm i = true then 1 else 0]) := by
  have hbyte : ∀ b : Bool, flagByte b = [if b = true then 1 else 0] := fun b => by cases b <;> rfl
  rw [ownerClearLineLatch, withLine_inRange, hbyte, hbyte]
  rfl

/-! ### The owner of SET_WATCH (R130) -/

/-- The watch is replaced, and a RAISED one has sent the report of its absence. -/
theorem replaceWatch_eq (n : Fin 8) (i : Fin 32) (w : Watch) (s : State) :
    replaceWatch n i w s =
      { s with
        meter := { s.meter with watches := update s.meter.watches n fun ws => update ws i fun _ => w }
        mail := { s.mail with alarms := s.mail.alarms ++
          (if s.meter.watches[n][i].raised = true then [watchReport n i s.meter.watches[n][i] false] else []) } } := by
  dsimp only [replaceWatch]
  by_cases hraised : s.meter.watches[n][i].raised = true
  · rw [if_pos hraised, if_pos hraised]
    rfl
  · rw [if_neg hraised, if_neg hraised, List.append_nil]

theorem watchAlarm_eq (k : WatchKind) : watchAlarm k = if k = .over then .over else .silence := by cases k <;> rfl

theorem ownerSetWatch_taken (n : Fin 8) (i : Fin 32) (kind : WatchKind) {threshold hold : Nat} (action : AlarmAction)
    (hthreshold : threshold ≤ 8388608) (hhold : 1 ≤ hold) (s : State) :
    ownerSetWatch n.val i.val (watchKindCode kind) threshold hold (actionCode action) s =
      (replaceWatch n i
          { kind := kind, threshold := threshold, hold := hold, action := action, run := 0, raised := false } s,
        answer .ok []) := by
  rw [ownerSetWatch, withScreen_inRange, watchKindOf_watchKindCode, actionOf_actionCode]
  exact dif_pos ⟨i.isLt, hthreshold, Nat.ne_of_gt hhold⟩

theorem ownerSetWatch_refused (n : Fin 8) {i kind threshold hold action : Nat}
    (h : 32 ≤ i ∨ 2 < kind ∨ 8388608 < threshold ∨ hold = 0 ∨ 2 < action) :
    ownerSetWatch n.val i kind threshold hold action = refuse .badArgument := by
  funext s
  rw [ownerSetWatch, withScreen_inRange]
  split
  next k a hk ha =>
    have hkind := watchKindOf_some_le hk
    have haction := actionOf_some_le ha
    refine dif_neg ?_
    simp only [Config.maxMeter]
    omega
  next => rfl

theorem exec_setWatch_taken (p : Port) (n : Fin 8) (i : Fin 32) (kind : WatchKind) {threshold hold : Nat}
    (action : AlarmAction) {s : State} (hs : Running s) (hthreshold : threshold ≤ 8388608) (hhold : 1 ≤ hold) :
    exec (.setWatch p n.val i.val (watchKindCode kind) threshold hold (actionCode action)) s = .next
      { replaceWatch n i
          { kind := kind, threshold := threshold, hold := hold, action := action, run := 0, raised := false } s with
        port := answeredPorts p (answer .ok []) s.port } :=
  exec_action rfl hs (fun _ => by rw [replaceWatch_eq, replaceWatch_eq])
    (ownerSetWatch_taken n i kind action hthreshold hhold (takeHeld p s))

/-! ### The parts of O46 -/

theorem watchAndReleaseRequests : WatchAndReleaseRequests := by
  refine ⟨fun p n i kind threshold hold action s hs hthreshold hhold => ?_,
    fun p n i kind threshold hold action s hs h => exec_refused rfl (ownerSetWatch_refused n h) hs,
    fun p shift s hs => ?_⟩
  · refine ⟨_, exec_setWatch_taken p n i kind action hs hthreshold hhold, ?_⟩
    rw [replaceWatch_eq, watchReport, watchAlarm_eq]
    have hscreen := getElem_update_self s.meter.watches n fun ws => update ws i fun _ =>
      { kind := kind, threshold := threshold, hold := hold, action := action, run := 0, raised := false }
    refine ⟨rfl, othersKept_update n s.meter.watches _, ?_, ?_⟩
    · exact fun j hj => (congrArg (·[j]) hscreen).trans (othersKept_update i s.meter.watches[n] _ j hj)
    · exact (congrArg (·[i]) hscreen).trans (getElem_update_self s.meter.watches[n] i _)
  · rw [Bool.decide_or]
    exact exec_action (f := fun u => { u with meter := { u.meter with shift := max 1 (min shift 12) } }) rfl hs
      (fun _ => rfl) rfl

theorem alarmConfigurationRequests : AlarmConfigurationRequests := by
  refine ⟨fun p row kind severity action s hs hrow => ⟨fun hallowed => ?_, fun hallowed => ?_⟩,
    fun p kind severity action s hs h => exec_refused rfl (ownerSetSeverity_refused h) hs,
    fun p row mask s hs => ?_,
    fun p severity mask s hs h => exec_refused rfl (ownerSetRoute_refused h) hs,
    fun p severity s hs => exec_changeAlarm_record rfl hs (ownerSetSnapshotLevel_taken severity (takeHeld p s)) rfl rfl,
    fun p severity s hs h => exec_refused rfl (ownerSetSnapshotLevel_refused h) hs,
    fun p i mode threshold mask follow s hs => ?_,
    fun p line mode threshold mask follow s hs h => exec_refused rfl (ownerSetLine_refused h) hs,
    fun p i s hs => ?_,
    fun p line s hs h => exec_refused rfl (funext fun u => withLine_outside h u _) hs,
    fun p n s hs => ?_⟩
  · obtain rfl := kindRow_eq_of_code hrow
    exact ⟨_, exec_changeAlarm_record rfl hs (ownerSetSeverity_taken severity hallowed (takeHeld p s)) rfl rfl, rfl,
      getElem_update_self s.alarm.kindMap _ _, othersKept_update _ s.alarm.kindMap _⟩
  · exact exec_refused rfl (ownerSetSeverity_notAllowed severity hallowed) hs
  · obtain ⟨v, rfl⟩ := severityRow_surjective row
    rw [← severityCode_eq]
    exact ⟨_, exec_changeAlarm_record rfl hs (ownerSetRoute_taken v mask (takeHeld p s)) rfl rfl, rfl,
      getElem_update_self s.alarm.routes _ _, othersKept_update _ s.alarm.routes _⟩
  · have hline := onLine_line i (newLine mode threshold mask.val (decide (follow.val = 1))) s.alarm
    refine ⟨_, lineLevel (onLine i (newLine mode threshold mask.val (decide (follow.val = 1))) s.alarm) i,
      exec_changeAlarm rfl hs (ownerSetLine_taken i mode threshold mask follow (takeHeld p s)), rfl, ?_,
      othersKept_settleLatches_onLine i _ s.alarm, lineLevel_settleLatches _ _ i, fun hmode => ?_, fun hmode => ?_,
      fun hmode => ?_⟩
    · rw [settleLatches_line, hline, newLine]
    · exact lineLevel_off (by rw [hline]; exact hmode)
    · rw [lineLevel_follow (by rw [hline]; exact hmode), hline, newLine]
    · rw [lineLevel_severity_iff (by rw [hline]; exact hmode), hline]
      simp only [newLine, scopeMask_getLsbD_iff]
      rfl
  · have hline := onLine_line i (fun l => { l with latch := false }) s.alarm
    have hlevel : lineLevel (onLine i (fun l => { l with latch := false }) s.alarm) i = lineLevel s.alarm i :=
      lineLevel_congr rfl (by rw [hline])
    exact ⟨_, exec_changeAlarm rfl hs (ownerClearLineLatch_taken i (takeHeld p s)), rfl,
      (settleLatches_line_of_level hlevel).trans hline, othersKept_settleLatches_onLine i _ s.alarm⟩
  · exact ⟨_, exec_changeAlarm_record rfl hs (withScreen_inRange n (takeHeld p s) _) rfl rfl, rfl,
      getElem_update_self s.alarm.snapshots n _, othersKept_update n s.alarm.snapshots _⟩

theorem attentionFollowsTheRoutes : AttentionFollowsTheRoutes := by
  intro a p
  cases p <;> exact attention_iff a _

/-- Settles O46: a taken request is one change of its owner's record (`replaceWatch_eq`, `exec_changeAlarm`), a change
of one line sets no other line's latch (`othersKept_settleLatches_onLine`), and a refused one leaves all but its port. -/
theorem meterAndAlarmConfiguration : Obligations.MeterAndAlarmConfiguration :=
  ⟨watchAndReleaseRequests, alarmConfigurationRequests, attentionFollowsTheRoutes⟩

end Sys2Proof.Machine
end
